-- ==== Sys2Proof/Word.lean ====
section
/-!
DEFINITION. The word types of the processor (00_scope.md R105, R107, R110): a general register, a
data word, an instruction word and an address are all 32 bits; bit 0 is the least significant.
-/

namespace Sys2Proof

/-- A 32-bit general-register value, memory word, instruction word or word address (R105). -/
abbrev Word := BitVec 32

/-- Eight bits: the unit in which the model holds memory (log 7). -/
abbrev Byte := BitVec 8

/-- A 5-bit register field; every value 0..31 is legal and selects R0..R31 (R186). -/
abbrev Reg := BitVec 5

/-- The 8-bit immediate field; every value is legal (R185). -/
abbrev Imm := BitVec 8

/-- The 10-bit Interrupt Status and Control Register (R130). -/
abbrev Iscr := BitVec 10

end Sys2Proof
end

