-- ==== Sys2Proof/Syntax.lean ====
section
/-!
DEFINITION. The instruction set as syntax: one constructor per row of spec/opcode_table.json
(30_encoding.md R190), with the operands in the order of the assembler column. `Op` names the 46
operations without operands; `OperandClass` is the eight patterns of used fields (R183).
-/

namespace Sys2Proof

/-- The 46 instructions of R190. A register operand is a 5-bit number, an immediate 8 bits: every
value of either is legal (R185, R186), so no ill-formed operand can be written. -/
inductive Instr where
  -- Memory access (40_memory_access.md)
  | lw (rd : Reg) (rs1 : Reg) (imm : Imm)
  | sw (rs1 : Reg) (rs2 : Reg) (imm : Imm)
  -- Arithmetic (41_arithmetic.md)
  | add (rd : Reg) (rs1 : Reg) (rs2 : Reg)
  | addi (rd : Reg) (rs1 : Reg) (imm : Imm)
  | addu (rd : Reg) (rs1 : Reg) (rs2 : Reg)
  | addui (rd : Reg) (rs1 : Reg) (imm : Imm)
  | sub (rd : Reg) (rs1 : Reg) (rs2 : Reg)
  | subi (rd : Reg) (rs1 : Reg) (imm : Imm)
  | subu (rd : Reg) (rs1 : Reg) (rs2 : Reg)
  | subui (rd : Reg) (rs1 : Reg) (imm : Imm)
  -- Logical (42_logical.md)
  | and (rd : Reg) (rs1 : Reg) (rs2 : Reg)
  | andi (rd : Reg) (rs1 : Reg) (imm : Imm)
  | or (rd : Reg) (rs1 : Reg) (rs2 : Reg)
  | ori (rd : Reg) (rs1 : Reg) (imm : Imm)
  | xor (rd : Reg) (rs1 : Reg) (rs2 : Reg)
  | xori (rd : Reg) (rs1 : Reg) (imm : Imm)
  -- Load immediate (43_load_immediate.md)
  | li1 (rd : Reg) (rs1 : Reg) (imm : Imm)
  | li2 (rd : Reg) (rs1 : Reg) (imm : Imm)
  | li3 (rd : Reg) (rs1 : Reg) (imm : Imm)
  -- Relational (44_relational.md)
  | slt (rd : Reg) (rs1 : Reg) (rs2 : Reg)
  | slti (rd : Reg) (rs1 : Reg) (imm : Imm)
  | sle (rd : Reg) (rs1 : Reg) (rs2 : Reg)
  | slei (rd : Reg) (rs1 : Reg) (imm : Imm)
  | seq (rd : Reg) (rs1 : Reg) (rs2 : Reg)
  | seqi (rd : Reg) (rs1 : Reg) (imm : Imm)
  | sne (rd : Reg) (rs1 : Reg) (rs2 : Reg)
  | snei (rd : Reg) (rs1 : Reg) (imm : Imm)
  | sgt (rd : Reg) (rs1 : Reg) (rs2 : Reg)
  | sgti (rd : Reg) (rs1 : Reg) (imm : Imm)
  | sge (rd : Reg) (rs1 : Reg) (rs2 : Reg)
  | sgei (rd : Reg) (rs1 : Reg) (imm : Imm)
  -- Shift and rotate (45_shift.md)
  | shl (rd : Reg) (rs1 : Reg)
  | shrl (rd : Reg) (rs1 : Reg)
  | shra (rd : Reg) (rs1 : Reg)
  | rotl (rd : Reg) (rs1 : Reg)
  | rotr (rd : Reg) (rs1 : Reg)
  -- Control transfer (46_control_transfer.md)
  | beqz (rs1 : Reg) (imm : Imm)
  | bnez (rs1 : Reg) (imm : Imm)
  | jr (rs1 : Reg) (imm : Imm)
  | jsr (rd : Reg) (rs1 : Reg) (imm : Imm)
  | trap (rs1 : Reg) (imm : Imm)
  -- Special-register access (47_special_register.md)
  | intm (imm : Imm)
  | intgm (imm : Imm)
  | trm (imm : Imm)
  | movs2i (rd : Reg)
  | movi2s (rs2 : Reg)
deriving DecidableEq, Repr

/-- The 46 operations, without their operands. -/
inductive Op where
  | lw | sw
  | add | addi | addu | addui | sub | subi | subu | subui
  | and | andi | or | ori | xor | xori
  | li1 | li2 | li3
  | slt | slti | sle | slei | seq | seqi | sne | snei | sgt | sgti | sge | sgei
  | shl | shrl | shra | rotl | rotr
  | beqz | bnez | jr | jsr | trap
  | intm | intgm | trm | movs2i | movi2s
deriving DecidableEq, Repr

/-- The operand classes of R183, named as the spec names them: which of the four operand fields
an instruction uses. -/
inductive OperandClass where
  | RRR | RRI | SRI | RR | RI | I | D | S2
deriving DecidableEq, Repr

/-- The operand fields of the one instruction format (R181). -/
structure Fields where
  rd : Reg
  rs1 : Reg
  rs2 : Reg
  imm : Imm
deriving DecidableEq, Repr

/-- The operation of an instruction. -/
def Instr.op : Instr → Op
  | .lw _ _ _ => .lw
  | .sw _ _ _ => .sw
  | .add _ _ _ => .add
  | .addi _ _ _ => .addi
  | .addu _ _ _ => .addu
  | .addui _ _ _ => .addui
  | .sub _ _ _ => .sub
  | .subi _ _ _ => .subi
  | .subu _ _ _ => .subu
  | .subui _ _ _ => .subui
  | .and _ _ _ => .and
  | .andi _ _ _ => .andi
  | .or _ _ _ => .or
  | .ori _ _ _ => .ori
  | .xor _ _ _ => .xor
  | .xori _ _ _ => .xori
  | .li1 _ _ _ => .li1
  | .li2 _ _ _ => .li2
  | .li3 _ _ _ => .li3
  | .slt _ _ _ => .slt
  | .slti _ _ _ => .slti
  | .sle _ _ _ => .sle
  | .slei _ _ _ => .slei
  | .seq _ _ _ => .seq
  | .seqi _ _ _ => .seqi
  | .sne _ _ _ => .sne
  | .snei _ _ _ => .snei
  | .sgt _ _ _ => .sgt
  | .sgti _ _ _ => .sgti
  | .sge _ _ _ => .sge
  | .sgei _ _ _ => .sgei
  | .shl _ _ => .shl
  | .shrl _ _ => .shrl
  | .shra _ _ => .shra
  | .rotl _ _ => .rotl
  | .rotr _ _ => .rotr
  | .beqz _ _ => .beqz
  | .bnez _ _ => .bnez
  | .jr _ _ => .jr
  | .jsr _ _ _ => .jsr
  | .trap _ _ => .trap
  | .intm _ => .intm
  | .intgm _ => .intgm
  | .trm _ => .trm
  | .movs2i _ => .movs2i
  | .movi2s _ => .movi2s

/-- The operation's row in the table of R190, counted from 0. -/
def Op.row : Op → Fin 46
  | .lw => 0
  | .sw => 1
  | .add => 2
  | .addi => 3
  | .addu => 4
  | .addui => 5
  | .sub => 6
  | .subi => 7
  | .subu => 8
  | .subui => 9
  | .and => 10
  | .andi => 11
  | .or => 12
  | .ori => 13
  | .xor => 14
  | .xori => 15
  | .li1 => 16
  | .li2 => 17
  | .li3 => 18
  | .slt => 19
  | .slti => 20
  | .sle => 21
  | .slei => 22
  | .seq => 23
  | .seqi => 24
  | .sne => 25
  | .snei => 26
  | .sgt => 27
  | .sgti => 28
  | .sge => 29
  | .sgei => 30
  | .shl => 31
  | .shrl => 32
  | .shra => 33
  | .rotl => 34
  | .rotr => 35
  | .beqz => 36
  | .bnez => 37
  | .jr => 38
  | .jsr => 39
  | .trap => 40
  | .intm => 41
  | .intgm => 42
  | .trm => 43
  | .movs2i => 44
  | .movi2s => 45

/-- All 46 operations, in the order of R190. -/
def Op.all : List Op :=
  [.lw, .sw] ++
  [.add, .addi, .addu, .addui, .sub, .subi, .subu, .subui] ++
  [.and, .andi, .or, .ori, .xor, .xori] ++
  [.li1, .li2, .li3] ++
  [.slt, .slti, .sle, .slei, .seq, .seqi, .sne, .snei, .sgt, .sgti, .sge, .sgei] ++
  [.shl, .shrl, .shra, .rotl, .rotr] ++
  [.beqz, .bnez, .jr, .jsr, .trap] ++
  [.intm, .intgm, .trm, .movs2i, .movi2s]

/-- The thirteen register/immediate pairs, which share bits 8..1 of the opcode and differ in bit 0
(R182, R190). -/
def Op.pairs : List (Op × Op) :=
  [(.add, .addi), (.addu, .addui), (.sub, .subi), (.subu, .subui), (.and, .andi), (.or, .ori), (.xor, .xori)] ++
  [(.slt, .slti), (.sle, .slei), (.seq, .seqi), (.sne, .snei), (.sgt, .sgti), (.sge, .sgei)]

end Sys2Proof
end

