-- ==== Sys2Proof/Config.lean ====
section
/-!
DEFINITION. What one implementation fixes and the spec leaves open: the named parameters of
00_scope.md R106 as one plain record, and the free values (constants without a body) for what the
spec leaves undefined. The defaults of R106 stand in Decode.lean (the opcode map) and
Machine/Defaults.lean. The record is a field of State, so that one `step` covers every choice of the
parameters and statements range over all of them (log 1).
-/

namespace Sys2Proof

/-- OPCODE_MAP (R106): the 9-bit opcode of each operation, in the order of R190. The source gives no
number (D1); what it does constrain is `OpcodeMap.admissible`. -/
structure OpcodeMap where
  codes : Vector (BitVec 9) 46
deriving DecidableEq, Repr

/-- The opcode an opcode map gives an operation. -/
def OpcodeMap.code (m : OpcodeMap) (o : Op) : BitVec 9 := m.codes[o.row]

/-- UNUSED_FIELD_POLICY (R106, R189, D4): what a word with a known opcode and a non-zero unused
field does. -/
inductive UnusedFieldPolicy where
  | refuse   -- outside the model's domain (the default)
  | ignore   -- executes as if the field were zero
  | uoe      -- raises UOE
deriving DecidableEq, Repr

/-- CAUSE_BITS_MODE (R106, R343, D14): how entry writes TRAP, UOE and ARE. -/
inductive CauseBitsMode where
  | oneHot   -- the bit of the cause becomes 1, the others 0 (the default)
  | setOnly  -- the bit of the cause becomes 1, the others keep their value
deriving DecidableEq, Repr

/-- What stands at a data address (MEM_MAP, R106, R158, U8). -/
inductive RegionKind where
  | ram
  | device
  | absent
deriving DecidableEq, Repr

/-- A range of data addresses, both ends included. -/
structure Region where
  first : Word
  last : Word
  kind : RegionKind
deriving DecidableEq, Repr

/-- The named parameters of R106. -/
structure Config where
  /-- OPCODE_MAP (D1, D2, D3) -/
  opcodes : OpcodeMap
  /-- INT_ADDR, the address of the interrupt routine for every cause but `trap` (R342, D16) -/
  intAddr : Word
  /-- RESET_PC (R371, D21) -/
  resetPc : Word
  /-- RESET_ISCR (R371, D21) -/
  resetIscr : Iscr
  /-- MEM_MAP for data memory (R158, R159, D10): the first region that holds an address says what
  stands there; an address in no region is RAM -/
  memMap : List Region
  /-- PC_READ_BIAS, 0 or 1 (R290, D5): added to `pc` in the branch base and in the value `jsr`
  saves, nowhere else -/
  pcReadBias : Fin 2
  /-- ARE_WRITEBACK (R230, D12): whether an add or subtract that overflows writes rd -/
  areWriteback : Bool
  /-- CAUSE_BITS_MODE (R343, D14) -/
  causeBits : CauseBitsMode
  /-- ISCR_WRITE_SHADOW (R337, R358, D17): for how many instructions after an ISCR-writing one
  servicing stays forbidden -/
  iscrWriteShadow : Nat
  /-- UNUSED_FIELD_POLICY (R189, D4) -/
  unusedFields : UnusedFieldPolicy
  /-- UNIFIED_MEMORY (R164, D9): whether fetch and data access reach one store -/
  unifiedMemory : Bool
deriving DecidableEq, Repr

/-- FREE VALUE: the byte at a memory key that neither the program nor the environment has written
since the given number of reset events (R144, R152, R385, U5; log 6). The same byte each time it is
read, since reading RAM has no side effect (R156). -/
opaque Config.unwrittenByte : Nat → Nat → Byte

/-- FREE VALUE: a fresh 32-bit word, for a read of an address with nothing behind it (U8; log 9) and
of a device register the environment does not drive (R158; log 10). Applied to `State.draws`. -/
opaque Config.freeWord : Nat → Word

end Sys2Proof
end

