-- ==== Sys2Proof/WellFormed.lean ====
section
/-!
DEFINITION. Well-formedness checks, each a Bool. Register and immediate operands need none (their
types hold exactly the legal values, R185, R186); what can be ill formed is an opcode map, an
instruction under an opcode map, a memory region and a configuration. The check on an instruction
WORD (unused fields zero, R184) stands in Decode.lean beside the field extraction.
-/

namespace Sys2Proof

/-- The 46 opcodes are pairwise different (R190). -/
def OpcodeMap.injective (m : OpcodeMap) : Bool := decide (Op.all.map m.code).Nodup

/-- The two members of each register/immediate pair share `op8` = opcode[8:1] and differ in
`sel` = opcode[0] (R182, R190). -/
def OpcodeMap.pairsShareOp8 (m : OpcodeMap) : Bool :=
  Op.pairs.all fun p =>
    (m.code p.1).extractLsb' 1 8 == (m.code p.2).extractLsb' 1 8 &&
      (m.code p.1).getLsbD 0 != (m.code p.2).getLsbD 0

/-- What every opcode map must keep (R190, last paragraph). -/
def OpcodeMap.admissible (m : OpcodeMap) : Bool := m.injective && m.pairsShareOp8

/-- An instruction is well formed under an opcode map when its opcode is that of no other operation,
so that a word can stand for it. Under an injective map every instruction is. -/
def Instr.wellFormed (m : OpcodeMap) (i : Instr) : Bool :=
  Op.all.all fun o => decide (m.code o = m.code i.op → o = i.op)

/-- A region's first address does not lie above its last. -/
def Region.wellFormed (r : Region) : Bool := decide (r.first.toNat ≤ r.last.toNat)

/-- An ISCR value a handler can read without doubt: at most one of TRAP, UOE, ARE is on (R323, R343),
and an internal cause comes with INC on (the rows of R341). -/
def Iscr.causeConsistent (v : Iscr) : Bool :=
  !(v.getLsbD 7 && v.getLsbD 6) && !(v.getLsbD 7 && v.getLsbD 5) &&
    !(v.getLsbD 6 && v.getLsbD 5) &&
    (!(v.getLsbD 7 || v.getLsbD 6 || v.getLsbD 5) || v.getLsbD 0)

/-- A configuration the spec admits: an admissible opcode map, regions the right way round, and a
reset value of ISCR that names no two causes. -/
def Config.wellFormed (c : Config) : Bool :=
  c.opcodes.admissible && c.memMap.all Region.wellFormed && Iscr.causeConsistent c.resetIscr

end Sys2Proof
end

