-- ==== Sys2Proof/Decode.lean ====
section
/-!
DEFINITION. Decoding an instruction word (30_encoding.md R180 to R189) and encoding an instruction
(R196), both over an opcode map, the default map of R190, and which operand field is which operand. Decoding is total: every word is an
instruction, illegal (R188) or malformed (R189).
-/

namespace Sys2Proof

/-- The default OPCODE_MAP: the column "opcode (9 bit)" of R190, in its order. The numbers are the
spec's own assignment (D1, D2, D3; log 2), not the source's. -/
def defaultOpcodes : OpcodeMap where
  codes := #v[
    -- lw sw
    0x003, 0x005,
    -- add addi addu addui sub subi subu subui
    0x020, 0x021, 0x022, 0x023, 0x024, 0x025, 0x026, 0x027,
    -- and andi or ori xor xori
    0x030, 0x031, 0x032, 0x033, 0x034, 0x035,
    -- li1 li2 li3
    0x03B, 0x03D, 0x03F,
    -- slt slti sle slei seq seqi sne snei sgt sgti sge sgei
    0x040, 0x041, 0x042, 0x043, 0x044, 0x045, 0x046, 0x047, 0x048, 0x049, 0x04A, 0x04B,
    -- shl shrl shra rotl rotr
    0x060, 0x062, 0x064, 0x066, 0x068,
    -- beqz bnez jr jsr trap
    0x081, 0x083, 0x091, 0x093, 0x095,
    -- intm intgm trm movs2i movi2s
    0x0A1, 0x0A3, 0x0A5, 0x0B0, 0x0B2]

/-- `opcode = w[31:23]` (R181). -/
def opcodeField (w : Word) : BitVec 9 := w.extractLsb' 23 9

/-- `rd = w[22:18]`, `rs1 = w[17:13]`, `rs2 = w[12:8]`, `imm = w[7:0]` (R181). -/
def operandFields (w : Word) : Fields where
  rd := w.extractLsb' 18 5
  rs1 := w.extractLsb' 13 5
  rs2 := w.extractLsb' 8 5
  imm := w.extractLsb' 0 8

/-- The operand class of an operation (R183). -/
def Op.operandClass : Op → OperandClass
  | .lw | .addi | .addui | .subi | .subui | .andi | .ori | .xori | .li1
  | .li2 | .li3 | .slti | .slei | .seqi | .snei | .sgti | .sgei | .jsr => .RRI
  | .sw => .SRI
  | .add | .addu | .sub | .subu | .and | .or | .xor
  | .slt | .sle | .seq | .sne | .sgt | .sge => .RRR
  | .shl | .shrl | .shra | .rotl | .rotr => .RR
  | .beqz | .bnez | .jr | .trap => .RI
  | .intm | .intgm | .trm => .I
  | .movs2i => .D
  | .movi2s => .S2

/-- The operand fields of an instruction, the unused ones 0 (R184). -/
def Instr.fields : Instr → Fields
  | .lw rd rs1 imm => ⟨rd, rs1, 0, imm⟩
  | .sw rs1 rs2 imm => ⟨0, rs1, rs2, imm⟩
  | .add rd rs1 rs2 => ⟨rd, rs1, rs2, 0⟩
  | .addi rd rs1 imm => ⟨rd, rs1, 0, imm⟩
  | .addu rd rs1 rs2 => ⟨rd, rs1, rs2, 0⟩
  | .addui rd rs1 imm => ⟨rd, rs1, 0, imm⟩
  | .sub rd rs1 rs2 => ⟨rd, rs1, rs2, 0⟩
  | .subi rd rs1 imm => ⟨rd, rs1, 0, imm⟩
  | .subu rd rs1 rs2 => ⟨rd, rs1, rs2, 0⟩
  | .subui rd rs1 imm => ⟨rd, rs1, 0, imm⟩
  | .and rd rs1 rs2 => ⟨rd, rs1, rs2, 0⟩
  | .andi rd rs1 imm => ⟨rd, rs1, 0, imm⟩
  | .or rd rs1 rs2 => ⟨rd, rs1, rs2, 0⟩
  | .ori rd rs1 imm => ⟨rd, rs1, 0, imm⟩
  | .xor rd rs1 rs2 => ⟨rd, rs1, rs2, 0⟩
  | .xori rd rs1 imm => ⟨rd, rs1, 0, imm⟩
  | .li1 rd rs1 imm => ⟨rd, rs1, 0, imm⟩
  | .li2 rd rs1 imm => ⟨rd, rs1, 0, imm⟩
  | .li3 rd rs1 imm => ⟨rd, rs1, 0, imm⟩
  | .slt rd rs1 rs2 => ⟨rd, rs1, rs2, 0⟩
  | .slti rd rs1 imm => ⟨rd, rs1, 0, imm⟩
  | .sle rd rs1 rs2 => ⟨rd, rs1, rs2, 0⟩
  | .slei rd rs1 imm => ⟨rd, rs1, 0, imm⟩
  | .seq rd rs1 rs2 => ⟨rd, rs1, rs2, 0⟩
  | .seqi rd rs1 imm => ⟨rd, rs1, 0, imm⟩
  | .sne rd rs1 rs2 => ⟨rd, rs1, rs2, 0⟩
  | .snei rd rs1 imm => ⟨rd, rs1, 0, imm⟩
  | .sgt rd rs1 rs2 => ⟨rd, rs1, rs2, 0⟩
  | .sgti rd rs1 imm => ⟨rd, rs1, 0, imm⟩
  | .sge rd rs1 rs2 => ⟨rd, rs1, rs2, 0⟩
  | .sgei rd rs1 imm => ⟨rd, rs1, 0, imm⟩
  | .shl rd rs1 => ⟨rd, rs1, 0, 0⟩
  | .shrl rd rs1 => ⟨rd, rs1, 0, 0⟩
  | .shra rd rs1 => ⟨rd, rs1, 0, 0⟩
  | .rotl rd rs1 => ⟨rd, rs1, 0, 0⟩
  | .rotr rd rs1 => ⟨rd, rs1, 0, 0⟩
  | .beqz rs1 imm => ⟨0, rs1, 0, imm⟩
  | .bnez rs1 imm => ⟨0, rs1, 0, imm⟩
  | .jr rs1 imm => ⟨0, rs1, 0, imm⟩
  | .jsr rd rs1 imm => ⟨rd, rs1, 0, imm⟩
  | .trap rs1 imm => ⟨0, rs1, 0, imm⟩
  | .intm imm => ⟨0, 0, 0, imm⟩
  | .intgm imm => ⟨0, 0, 0, imm⟩
  | .trm imm => ⟨0, 0, 0, imm⟩
  | .movs2i rd => ⟨rd, 0, 0, 0⟩
  | .movi2s rs2 => ⟨0, 0, rs2, 0⟩

/-- The instruction of an operation with the fields of its class taken from `f` (R187). -/
def Op.instr (o : Op) (f : Fields) : Instr :=
  match o with
  | .lw => .lw f.rd f.rs1 f.imm
  | .sw => .sw f.rs1 f.rs2 f.imm
  | .add => .add f.rd f.rs1 f.rs2
  | .addi => .addi f.rd f.rs1 f.imm
  | .addu => .addu f.rd f.rs1 f.rs2
  | .addui => .addui f.rd f.rs1 f.imm
  | .sub => .sub f.rd f.rs1 f.rs2
  | .subi => .subi f.rd f.rs1 f.imm
  | .subu => .subu f.rd f.rs1 f.rs2
  | .subui => .subui f.rd f.rs1 f.imm
  | .and => .and f.rd f.rs1 f.rs2
  | .andi => .andi f.rd f.rs1 f.imm
  | .or => .or f.rd f.rs1 f.rs2
  | .ori => .ori f.rd f.rs1 f.imm
  | .xor => .xor f.rd f.rs1 f.rs2
  | .xori => .xori f.rd f.rs1 f.imm
  | .li1 => .li1 f.rd f.rs1 f.imm
  | .li2 => .li2 f.rd f.rs1 f.imm
  | .li3 => .li3 f.rd f.rs1 f.imm
  | .slt => .slt f.rd f.rs1 f.rs2
  | .slti => .slti f.rd f.rs1 f.imm
  | .sle => .sle f.rd f.rs1 f.rs2
  | .slei => .slei f.rd f.rs1 f.imm
  | .seq => .seq f.rd f.rs1 f.rs2
  | .seqi => .seqi f.rd f.rs1 f.imm
  | .sne => .sne f.rd f.rs1 f.rs2
  | .snei => .snei f.rd f.rs1 f.imm
  | .sgt => .sgt f.rd f.rs1 f.rs2
  | .sgti => .sgti f.rd f.rs1 f.imm
  | .sge => .sge f.rd f.rs1 f.rs2
  | .sgei => .sgei f.rd f.rs1 f.imm
  | .shl => .shl f.rd f.rs1
  | .shrl => .shrl f.rd f.rs1
  | .shra => .shra f.rd f.rs1
  | .rotl => .rotl f.rd f.rs1
  | .rotr => .rotr f.rd f.rs1
  | .beqz => .beqz f.rs1 f.imm
  | .bnez => .bnez f.rs1 f.imm
  | .jr => .jr f.rs1 f.imm
  | .jsr => .jsr f.rd f.rs1 f.imm
  | .trap => .trap f.rs1 f.imm
  | .intm => .intm f.imm
  | .intgm => .intgm f.imm
  | .trm => .trm f.imm
  | .movs2i => .movs2i f.rd
  | .movi2s => .movi2s f.rs2

/-- The fields a class does not use are zero (R183, R184). -/
def OperandClass.unusedZero (c : OperandClass) (f : Fields) : Bool :=
  match c with
  | .RRR => f.imm == 0
  | .RRI => f.rs2 == 0
  | .SRI => f.rd == 0
  | .RR => f.rs2 == 0 && f.imm == 0
  | .RI => f.rd == 0 && f.rs2 == 0
  | .I => f.rd == 0 && f.rs1 == 0 && f.rs2 == 0
  | .D => f.rs1 == 0 && f.rs2 == 0 && f.imm == 0
  | .S2 => f.rd == 0 && f.rs1 == 0 && f.imm == 0

/-- The operation an opcode stands for, if any (R187). -/
def OpcodeMap.find (m : OpcodeMap) (opc : BitVec 9) : Option Op :=
  Op.all.find? fun o => m.code o == opc

/-- What a fetched word is (R187). -/
inductive Decoded where
  | instr (i : Instr)
  /-- the opcode is not recognised (R188), or the policy `uoe` treats the word so (R189) -/
  | illegal
  /-- known opcode, non-zero unused field, policy `refuse` (R189) -/
  | malformed
deriving DecidableEq, Repr

/-- Decoding procedure of R187: the opcode alone names the operation; then UNUSED_FIELD_POLICY says
what a non-zero unused field does (R189). -/
def decodeWord (m : OpcodeMap) (policy : UnusedFieldPolicy) (w : Word) : Decoded :=
  match m.find (opcodeField w) with
  | none => .illegal
  | some o =>
    if o.operandClass.unusedZero (operandFields w) then .instr (o.instr (operandFields w))
    else match policy with
      | .refuse => .malformed
      | .ignore => .instr (o.instr (operandFields w))
      | .uoe => .illegal

/-- Encoding of an opcode and operand fields (R196):
`(opc << 23) | (rd << 18) | (rs1 << 13) | (rs2 << 8) | imm`. -/
def encodeFields (opc : BitVec 9) (f : Fields) : Word :=
  (opc.setWidth 32 <<< 23) ||| (f.rd.setWidth 32 <<< 18) ||| (f.rs1.setWidth 32 <<< 13) |||
    (f.rs2.setWidth 32 <<< 8) ||| f.imm.setWidth 32

/-- The word of an instruction, its unused fields zero (R184, R196). -/
def encode (m : OpcodeMap) (i : Instr) : Word := encodeFields (m.code i.op) i.fields

/-- The instruction the decoder reads, under the default opcode map and policy, from the word whose
low `nbits` bits are those of `w` and whose other bits are 0. An instruction is one 32-bit word and
fetch delivers memory bit i as instruction bit i (R154, R180), so the words need no laying out. -/
def decodeTableWord (nbits w : Nat) : Option Instr :=
  match decodeWord defaultOpcodes .refuse (BitVec.ofNat 32 (w % 2 ^ nbits)) with
  | .instr i => some i
  | .illegal => none
  | .malformed => none

end Sys2Proof
end

