-- ==== Sys2Proof/Machine/Defaults.lean ====
section
/-!
DEFINITION. The default value of every parameter of 00_scope.md R106 (log 1 to log 4).
-/

namespace Sys2Proof

/-- The column "default" of R106: INT_ADDR = 0 (D16), RESET_PC = INT_ADDR and RESET_ISCR = 0x100
(D21), all of data memory RAM (D10), PC_READ_BIAS = 0 (D5), the wrapped result written on overflow
(D12), cause bits loaded one-hot (D14), no shadow after an ISCR write (D17), malformed words refused
(D4), two memories (D9). -/
def Config.default : Config where
  opcodes := defaultOpcodes
  intAddr := 0x00000000
  resetPc := 0x00000000
  resetIscr := 0x100
  memMap := []
  pcReadBias := 0
  areWriteback := true
  causeBits := .oneHot
  iscrWriteShadow := 0
  unusedFields := .refuse
  unifiedMemory := false

end Sys2Proof
end

