-- ==== Sys2Proof/Machine/State.lean ====
section
/-!
DEFINITION. The state of the machine as plain data: the program-visible state of 10_state.md R120,
the inputs from the environment (R142), the hidden state the interrupt rules imply (R142, R358) and
the model's own fields (the parameters of R106, counters of free values, the environment's inputs
still to come, the record of device accesses). INVENTORY.md lists every field with its rule and its
reset value.
-/

namespace Sys2Proof.Machine

/-- A memory: (key, byte) pairs with strictly rising keys. Byte k of the word at word address a has
the key 4a + k (log 7). A key that is not listed holds nothing the model knows. -/
abbrev Memory := List Host.Cell

/-- What the environment supplies with a reset (R371): the contents of the general registers, which
the spec leaves unspecified, the program image, and the data words it loads. The lists hold
(word address, word). -/
structure ResetLoad where
  gpr : Vector Word 31
  image : List (Word × Word)
  data : List (Word × Word)
deriving DecidableEq, Repr

/-- What the environment does at one step boundary (R359, R370): the levels of the two request
lines, the device registers whose value it changes, and the reset event if it raises one. -/
structure EnvInput where
  nmiLine : Bool
  miLine : Bool
  devices : List (Word × Word)
  reset : Option ResetLoad
deriving DecidableEq, Repr

/-- An access of the program to a device register, which the environment sees (R156, R158). -/
inductive DeviceAccess where
  | read (addr : Word)
  | write (addr value : Word)
deriving DecidableEq, Repr

/-- The state of the machine. -/
structure State where
  /-- R1 .. R31: `Rn` is entry n - 1; R0 has no storage (R121, R122) -/
  gpr : Vector Word 31
  /-- the program counter, a word address (R126) -/
  pc : Word
  /-- the Interrupt Status and Control Register (R130) -/
  iscr : Iscr
  /-- instruction memory: the program image (R150, R151) -/
  imem : Memory
  /-- data memory (R151 to R153) -/
  dmem : Memory
  /-- the level of the NMI request line (R142, R330) -/
  nmiLine : Bool
  /-- the level of the MI request line (R142, R330) -/
  miLine : Bool
  /-- the values device registers return, as the environment drives them (R158, R359) -/
  devices : Memory
  /-- how many further instructions are shielded from servicing after an ISCR write (R142, R358) -/
  shadow : Nat
  /-- the parameters of R106, which no step changes (log 1) -/
  config : Config
  /-- the environment's inputs still to come, one per step boundary, oldest first (log 11) -/
  env : List EnvInput
  /-- the accesses made at device registers, oldest first (log 10) -/
  bus : List DeviceAccess
  /-- how many fresh free values have been drawn (log 32) -/
  draws : Nat
  /-- how many reset events there have been (log 32) -/
  resets : Nat
deriving DecidableEq, Repr

/-- Why the machine stops. -/
inductive Fault where
  /-- Raised by the fetch of a step at an address outside the program image, which holds no defined
  word (R150, U9). Safe: the model stops where the hardware does something the spec does not say. -/
  | fetchOutsideImage
deriving DecidableEq, Repr

/-- Why the model gives no meaning. -/
inductive Refusal where
  /-- Raised by an arm of `exec` whose instruction has no meaning yet. Safe. -/
  | notModelled (mnemonic : String)
  /-- Raised by a step whose word has a known opcode and a non-zero unused field, under
  UNUSED_FIELD_POLICY = refuse (R189, D4, U1). Safe: the word is outside the model's domain. -/
  | malformedWord
  /-- Raised by `sw` to an address that holds program text on a unified memory (R164, D9, U10).
  Safe: the source gives no rule for when a fetch sees the store. Never under the default. -/
  | storeToProgramText
deriving DecidableEq, Repr

/-- The outcome of an instruction or a step. -/
abbrev Result := Host.Outcome State Fault Refusal

/-- The machine right after reset (R371, R144): PC and ISCR at the values of the configuration, R0
zero by R121, both memories with nothing listed (the environment loads them, log 30). R1..R31 have
no reset value in the spec; the model's 0 is a DESIGN CHOICE (log 5), as are the inactive request
lines (log 12) and the values of the model's own fields (log 10, 11, 32). -/
def State.reset : State where
  gpr := Vector.replicate 31 0
  pc := Config.default.resetPc
  iscr := Config.default.resetIscr
  imem := []
  dmem := []
  nmiLine := false
  miLine := false
  devices := []
  shadow := 0
  config := Config.default
  env := []
  bus := []
  draws := 0
  resets := 0

end Sys2Proof.Machine
end

