-- ==== Sys2Proof/Machine/Memory.lean ====
section
/-!
DEFINITION. Memory as byte cells: reading and writing one byte, the word accesses built from them
(20_memory.md R150 to R153), and the canonical form.
-/

namespace Sys2Proof.Machine

/-- The key of byte `k` of the word at word address `a` (log 7). Byte k is bits 8k+7..8k (R107). -/
def cellKey (a : Word) (k : Nat) : Nat := 4 * a.toNat + k

/-- What is listed at a key. THE ONE DEFINITION of what an unlisted key reads as: no value. -/
def Memory.byte? : Memory → Nat → Option Byte
  | [], _ => none
  | (k, b) :: m, a => if k = a then some b else Memory.byte? m a

/-- Writes one byte, in the place that keeps the keys rising. -/
def Memory.putByte : Memory → Nat → Byte → Memory
  | [], a, v => [(a, v)]
  | (k, b) :: m, a, v =>
    if a < k then (a, v) :: (k, b) :: m
    else if a = k then (a, v) :: m
    else (k, b) :: Memory.putByte m a v

/-- The word of four bytes, byte 3 the most significant (R107). -/
def wordOfBytes (b0 b1 b2 b3 : Byte) : Word := b3 ++ b2 ++ b1 ++ b0

/-- Byte `k` of a word: bits 8k+7..8k (R107). -/
def byteOfWord (w : Word) (k : Nat) : Byte := w.extractLsb' (8 * k) 8

/-- The word at a word address, if all of it is listed. -/
def Memory.word? (m : Memory) (a : Word) : Option Word :=
  match m.byte? (cellKey a 0), m.byte? (cellKey a 1), m.byte? (cellKey a 2),
      m.byte? (cellKey a 3) with
  | some b0, some b1, some b2, some b3 => some (wordOfBytes b0 b1 b2 b3)
  | _, _, _, _ => none

/-- One byte of a memory, `undef` of its key where nothing is listed. -/
def Memory.byteOr (m : Memory) (undef : Nat → Byte) (key : Nat) : Byte :=
  (m.byte? key).getD (undef key)

/-- The word at a word address, total: each byte that is not listed is `undef` of its key (R152). -/
def Memory.wordOr (m : Memory) (undef : Nat → Byte) (a : Word) : Word :=
  wordOfBytes (m.byteOr undef (cellKey a 0)) (m.byteOr undef (cellKey a 1))
    (m.byteOr undef (cellKey a 2)) (m.byteOr undef (cellKey a 3))

/-- Replaces the word at a word address, all 32 bits at once (R153). -/
def Memory.putWord (m : Memory) (a v : Word) : Memory :=
  (((m.putByte (cellKey a 0) (byteOfWord v 0)).putByte (cellKey a 1) (byteOfWord v 1)).putByte
    (cellKey a 2) (byteOfWord v 2)).putByte (cellKey a 3) (byteOfWord v 3)

/-- Writes a list of (word address, word), the first first. -/
def Memory.load (m : Memory) (ws : List (Word × Word)) : Memory :=
  ws.foldl (fun m p => m.putWord p.1 p.2) m

/-- The canonical form: keys strictly rising, each the key of a byte of the 2^32 words (R151). An
unlisted key reads as no value, so no entry can equal what an unlisted key reads as. -/
def Memory.wf (m : Memory) : Bool :=
  decide (m.Pairwise fun x y => x.1 < y.1) && m.all fun c => decide (c.1 < 4 * 2 ^ 32)

end Sys2Proof.Machine
end

