-- ==== Sys2Proof/Machine/Operands.lean ====
section
/-!
DEFINITION. The operand forms: the general registers (10_state.md R121, R122), the widenings of the
8-bit immediate (30_encoding.md R185), the effective address and the jump targets (20_memory.md R166,
40_memory_access.md R210, 46_control_transfer.md R290).
-/

namespace Sys2Proof.Machine

theorem gpr_index_lt (r : Reg) : r.toNat - 1 < 31 := by have := r.isLt; omega

/-- `x[r]`: R0 always reads 0 (R121). -/
def State.reg (s : State) (r : Reg) : Word :=
  if r = 0#5 then 0#32 else s.gpr[r.toNat - 1]'(gpr_index_lt r)

/-- `x[r] <- v`: no effect when r = 0 (R121). -/
def State.setReg (s : State) (r : Reg) (v : Word) : State :=
  { s with gpr := if r = 0#5 then s.gpr else s.gpr.set (r.toNat - 1) v (gpr_index_lt r) }

/-- `sext_32(imm)`: bit 7 replicated 24 times, then the immediate (R109). -/
def sext32 (imm : Imm) : Word := imm.signExtend 32

/-- `zext_32(imm)`: 24 zeros, then the immediate (R109). -/
def zext32 (imm : Imm) : Word := imm.setWidth 32

/-- The immediate in byte `k`, every other byte 0 (R185, R250). -/
def immInByte (k : Nat) (imm : Imm) : Word := zext32 imm <<< (8 * k)

/-- Register plus displacement modulo 2^32: the effective address of `lw` and `sw` (R210) and the
target of `jr`, `jsr`, `trap` (R290). It never signals overflow (R166). -/
def State.regPlus (s : State) (rs1 : Reg) (imm : Imm) : Word := s.reg rs1 + sext32 imm

/-- The value an instruction reads as "PC": its own address plus PC_READ_BIAS (R126, R290, D5). -/
def State.readPc (s : State) : Word := s.pc + BitVec.ofNat 32 s.config.pcReadBias.val

/-- The target of `beqz` and `bnez`, modulo 2^32 (R290, R291, R166). -/
def State.branchTarget (s : State) (imm : Imm) : Word := s.readPc + sext32 imm

/-- What entry saves in R31 after a taken `beqz` or `bnez`: `A + sext_32(imm)` (R341), A the instruction's
own address; PC_READ_BIAS is no part of it (R290, D5). -/
def State.savedBranchTarget (s : State) (imm : Imm) : Word := s.pc + sext32 imm

end Sys2Proof.Machine
end

