-- ==== Sys2Proof/Machine/Flags.lean ====
section
/-!
DEFINITION. The conditions the processor computes. It has no condition codes (10_state.md R129): what
there is are the overflow tests of the eight arithmetic instructions (41_arithmetic.md R220), the 0/1
result of a comparison (44_relational.md R260) and the bits of ISCR by name (10_state.md R130).
-/

namespace Sys2Proof.Machine

/-- Overflow of a signed result: the exact integer is outside [-2^31, 2^31 - 1] (R220). -/
def outsideSigned (exact : Int) : Bool := decide (exact < -2 ^ 31 ∨ 2 ^ 31 - 1 < exact)

/-- `add`, `addi` (R220). -/
def addOverflow (a b : Word) : Bool := outsideSigned (a.toInt + b.toInt)

/-- `sub`, `subi` (R220). -/
def subOverflow (a b : Word) : Bool := outsideSigned (a.toInt - b.toInt)

/-- `addu`, `addui`: the exact sum exceeds 2^32 - 1 (R220; C2 for the bound). -/
def adduOverflow (a b : Word) : Bool := decide (2 ^ 32 - 1 < a.toNat + b.toNat)

/-- `subu`, `subui`: the exact difference is negative (R220). -/
def subuOverflow (a b : Word) : Bool := decide (a.toNat < b.toNat)

/-- The result of a comparison: 1 or 0, the other bits 0 (R260). -/
def boolWord (c : Bool) : Word := if c then 1 else 0

/-- The bits of ISCR, from the most to the least significant (R130). -/
inductive IscrBit where
  | gm | ini | trap | uoe | are | nmi | mi | mask | trm | inc
deriving DecidableEq, Repr

/-- The bit's number (R130). -/
def IscrBit.pos : IscrBit → Nat
  | .gm => 9 | .ini => 8 | .trap => 7 | .uoe => 6 | .are => 5
  | .nmi => 4 | .mi => 3 | .mask => 2 | .trm => 1 | .inc => 0

/-- One bit of an ISCR value. -/
def iscrGet (v : Iscr) (b : IscrBit) : Bool := v.getLsbD b.pos

/-- An ISCR value with one bit given, the other nine unchanged. -/
def iscrPut (v : Iscr) (b : IscrBit) (on : Bool) : Iscr :=
  (v &&& ~~~(1#10 <<< b.pos)) ||| (if on then 1#10 <<< b.pos else 0#10)

/-- A bit of the machine's ISCR. -/
def State.bit (s : State) (b : IscrBit) : Bool := iscrGet s.iscr b

/-- The machine with one bit of ISCR written. -/
def State.setBit (s : State) (b : IscrBit) (on : Bool) : State :=
  { s with iscr := iscrPut s.iscr b on }

end Sys2Proof.Machine
end

