-- ==== Sys2Proof/Machine/Ops.lean ====
section
/-!
DEFINITION. The shared operations: data access (20_memory.md), taking an interrupt (60_exceptions.md
R336 to R344) and the ways an instruction ends, acceptance of external requests (R331), the
environment's inputs (R359) and the reset event (R370, R371).
-/

namespace Sys2Proof.Machine

/-! ## Data access -/

/-- What MEM_MAP says stands at a data address: the first region that holds it, else RAM (R158). -/
def State.kindAt (s : State) (a : Word) : RegionKind :=
  match s.config.memMap.find? fun r =>
      decide (r.first.toNat ≤ a.toNat) && decide (a.toNat ≤ r.last.toNat) with
  | some r => r.kind
  | none => .ram

/-- The program text a data access at `a` meets: only on a unified memory (R164, D9; log 17). -/
def State.textAt (s : State) (a : Word) : Option Word :=
  if s.config.unifiedMemory then s.imem.word? a else none

/-- The value of a byte of RAM no one has written (R144, R152, U5; log 6). -/
def State.unwritten (s : State) : Nat → Byte := Config.unwrittenByte s.resets

/-- One byte of data RAM, by key: what is listed, else the free value of that key (log 6). -/
def State.ramByte (s : State) (key : Nat) : Byte := s.dmem.byteOr s.unwritten key

/-- The word of data RAM at a word address (R152). -/
def State.ramWord (s : State) (a : Word) : Word := s.dmem.wordOr s.unwritten a

/-- A fresh free value (log 32). -/
def State.draw (s : State) : Word × State :=
  (Config.freeWord s.draws, { s with draws := s.draws + 1 })

/-- `MemRead(a, 32)` (R152): RAM gives its word; a device register what the environment drives, and
the access is recorded (R158, U11); an address with nothing behind it a free value (U8). Total, and
never an interrupt (R157). -/
def State.memRead (s : State) (a : Word) : Word × State :=
  match s.textAt a with
  | some w => (w, s)
  | none =>
    match s.kindAt a with
    | .ram => (s.ramWord a, s)
    | .device =>
      let seen := { s with bus := s.bus ++ [.read a] }
      match s.devices.word? a with
      | some w => (w, seen)
      | none => seen.draw
    | .absent => s.draw

/-- `MemWrite(a, 32, v)` (R153): RAM takes the word; a write to a device register goes to the
environment (R158); an address with nothing behind it ignores it (U8). A store to program text on a
unified memory has no answer (R164, U10). -/
def State.memWrite (s : State) (a v : Word) : Option State :=
  match s.textAt a with
  | some _ => none
  | none =>
    match s.kindAt a with
    | .ram => some { s with dmem := s.dmem.putWord a v }
    | .device => some { s with bus := s.bus ++ [.write a v] }
    | .absent => some s

/-! ## Interrupts -/

/-- An internal request an instruction posts for its own step (R109, R321). -/
inductive Request where
  | trap (target : Word)
  | uoe
  | are
deriving DecidableEq, Repr

/-- The cause an entry is attributed to: one of the six kinds (R320), TRAP with its target. -/
inductive Cause where
  | trap (target : Word)
  | uoe
  | are
  | nmi
  | mi
  | trm
deriving DecidableEq, Repr

/-- How an instruction ends, once its own writes are made (R335 item 3): the next address, the two
columns of its row of R341 (what an entry saves in R31, and whether the instruction is a jump that is
taken, so that INC is 0), the internal request it posted, and whether it is one of the four
ISCR-writing instructions (R337). -/
structure Ending where
  next : Word
  saved : Word
  jumped : Bool
  request : Option Request
  writesIscr : Bool
deriving DecidableEq, Repr

/-- An internal request as a cause. -/
def Request.cause : Request → Cause
  | .trap t => .trap t
  | .uoe => .uoe
  | .are => .are

/-- The highest external or trace request that may be serviced when GM = 1 (R336, last three lines):
NMI, then MI if MASK allows it, then TRM. -/
def State.pendingCause (s : State) : Option Cause :=
  if s.bit .nmi then some .nmi
  else if s.bit .mi && s.bit .mask then some .mi
  else if s.bit .trm then some .trm
  else none

/-- The decision (R336): nothing in the step of an ISCR write (R337) or in its shadow (R358), nothing
while GM = 0 (an internal request is then dropped, R338), else the highest request present. -/
def State.servicedCause (s : State) (e : Ending) : Option Cause :=
  if e.writesIscr || decide (0 < s.shadow) then none
  else if s.bit .gm then
    match e.request with
    | some r => some r.cause
    | none => s.pendingCause
  else none

/-- The handler's address (R342): the target for TRAP, INT_ADDR for every other cause. -/
def State.handler (s : State) : Cause → Word
  | .trap t => t
  | .uoe | .are | .nmi | .mi | .trm => s.config.intAddr

/-- What entry loads into a cause indicator (R343, D14): 1 if it is the cause's; else 0 in one-hot
mode, its old value in set-only mode. -/
def State.causeBit (s : State) (b : IscrBit) (isCause : Bool) : Bool :=
  match s.config.causeBits with
  | .oneHot => isCause
  | .setOnly => isCause || s.bit b

def Cause.isTrap : Cause → Bool
  | .trap _ => true
  | .uoe | .are | .nmi | .mi | .trm => false

/-- ISCR after an entry (R340, R343, R344): INC loaded, TRAP, UOE and ARE loaded, GM cleared; INI,
NMI, MI, MASK and TRM unchanged. -/
def State.entryIscr (s : State) (c : Cause) (inc : Bool) : Iscr :=
  let v := iscrPut s.iscr .inc inc
  let v := iscrPut v .trap (s.causeBit .trap c.isTrap)
  let v := iscrPut v .uoe (s.causeBit .uoe (decide (c = .uoe)))
  let v := iscrPut v .are (s.causeBit .are (decide (c = .are)))
  iscrPut v .gm false

/-- TAKING AN INTERRUPT (R340): R31 and INC by R341, the ISCR bits, GM off, PC at the handler. The write to
R31 comes last (D20). -/
def State.enter (s : State) (c : Cause) (e : Ending) : State :=
  { s.setReg 31#5 e.saved with
    iscr := s.entryIscr c (!e.jumped)
    pc := s.handler c }

/-- The shield after an ISCR write: set by such an instruction, used up by one by every other (R358;
log 23). -/
def State.tickShadow (s : State) (writesIscr : Bool) : State :=
  { s with shadow := if writesIscr then s.config.iscrWriteShadow else s.shadow - 1 }

/-- Items 4 and 5 of the step (R335): decide, then enter or go on at the next address. -/
def State.conclude (s : State) (e : Ending) : State :=
  match s.servicedCause e with
  | none => { s.tickShadow e.writesIscr with pc := e.next }
  | some c => (s.tickShadow e.writesIscr).enter c e

/-! ### The return

There is no return-from-interrupt operation: a handler returns by `intgm 1` and then `jr R31, 0`, and
`jr` changes no bit of ISCR (R297, R350). What the hardware adds is that `intgm 1` is not followed by
an entry in its own step (R316: `servicedCause`) and that an entry in the step of the `jr` saves the
`jr`'s target with INC = 0 (R341: `enter`). -/

/-! ### The ways an instruction ends -/

/-- `pc <- pc + 1` (R127, R128). -/
def State.endPlain (s : State) : State :=
  s.conclude { next := s.pc + 1, saved := s.pc, jumped := false, request := none, writesIscr := false }

/-- As `endPlain`, with ARE posted if the instruction overflowed (R230). -/
def State.endArith (s : State) (overflow : Bool) : State :=
  s.conclude
    { next := s.pc + 1, saved := s.pc, jumped := false, request := if overflow then some .are else none,
      writesIscr := false }

/-- `pc <- target` of `jr`, `jsr` or a taken branch (R127); an entry in the step saves `saved` (R341). -/
def State.endJump (s : State) (target saved : Word) : State :=
  s.conclude { next := target, saved := saved, jumped := true, request := none, writesIscr := false }

/-- `trap` (R295): posts TRAP; when that is not serviced it is a jump to the target (D13). -/
def State.endTrap (s : State) (target : Word) : State :=
  s.conclude
    { next := target, saved := s.pc, jumped := false, request := some (.trap target), writesIscr := false }

/-- An instruction that writes ISCR (R316). -/
def State.endIscrWrite (s : State) : State :=
  s.conclude { next := s.pc + 1, saved := s.pc, jumped := false, request := none, writesIscr := true }

/-- `x[rd] <- v; pc <- pc + 1`: the whole effect of an instruction that only computes a register
value (R127). -/
def State.writeReg (s : State) (rd : Reg) (v : Word) : Result := .next (s.setReg rd v).endPlain

/-- An illegal word (R188, R326): it changes no register and no memory and posts UOE. -/
def State.illegalWord (s : State) : State :=
  s.conclude { next := s.pc + 1, saved := s.pc, jumped := false, request := some .uoe, writesIscr := false }

/-! ## The step boundary -/

/-- Acceptance of external requests (R331, R332): with GM = 1 an active line sets its indicator;
MASK plays no part (R333). Nothing is ever cleared. -/
def State.accept (s : State) : State :=
  { s with
    iscr := iscrPut (iscrPut s.iscr .nmi (s.bit .nmi || (s.bit .gm && s.nmiLine))) .mi
      (s.bit .mi || (s.bit .gm && s.miLine)) }

/-- The reset event (R370, R371): PC and ISCR at their reset values, the general registers and the
memories as the environment supplies them. What the environment has not loaded is unspecified
afresh (log 13, 32). -/
def State.resetEvent (s : State) (l : ResetLoad) : State :=
  { s with
    gpr := l.gpr
    pc := s.config.resetPc
    iscr := s.config.resetIscr
    imem := Memory.load [] l.image
    dmem := Memory.load [] l.data
    shadow := 0
    resets := s.resets + 1 }

/-- The environment's input for this boundary is taken off the queue: the lines and the device
registers it drives (R359). With nothing queued they stay as they are (log 11). -/
def State.takeInput (s : State) : State :=
  match s.env with
  | [] => s
  | e :: rest =>
    { s with
      nmiLine := e.nmiLine
      miLine := e.miLine
      devices := s.devices.load e.devices
      env := rest }

/-- The reset event raised at this boundary, if any. -/
def State.pendingReset (s : State) : Option ResetLoad :=
  match s.env with
  | [] => none
  | e :: _ => e.reset

/-- Item 1 of the step (R335) where no reset is raised: the environment's input, then acceptance.
The state in which the instruction of the step is fetched and executed. -/
def State.atBoundary (s : State) : State := s.takeInput.accept

/-- `IFetch(pc)`: the word of the image (R150), none outside it (U9). -/
def State.fetch (s : State) : Option Word := s.imem.word? s.pc

/-- Decoding under the machine's parameters (R187). -/
def State.decode (s : State) (w : Word) : Decoded :=
  decodeWord s.config.opcodes s.config.unusedFields w

/-- Loads one word of the program image from outside (R371; log 30). -/
def State.loadImageWord (s : State) (a w : Word) : State := { s with imem := s.imem.putWord a w }

/-- No reset event at the coming boundary; the lines and devices of that input stay (log 30). -/
def State.withoutPendingReset (s : State) : State :=
  match s.env with
  | [] => s
  | e :: rest => { s with env := { e with reset := none } :: rest }

end Sys2Proof.Machine
end

