-- ==== Sys2Proof/Machine/Arithmetic.lean ====
section
/-!
DEFINITION. The arithmetic instructions (41_arithmetic.md): the result wraps modulo 2^32 and every one of
them checks for overflow, signed or unsigned by its name (R220, R229).
-/

namespace Sys2Proof.Machine

/-- Common to the eight instructions (R220, R230): rd receives the wrapped result, on overflow only if
ARE_WRITEBACK says so (D12), and an overflow posts ARE. -/
def State.arith (s : State) (rd : Reg) (r : Word) (overflow : Bool) : Result :=
  if overflow && !s.config.areWriteback then .next (s.endArith overflow)
  else .next ((s.setReg rd r).endArith overflow)

/-- `add rd, rs1, rs2` (R221): add, signed. -/
def execAdd (rd rs1 rs2 : Reg) (s : State) : Result :=
  s.arith rd (s.reg rs1 + s.reg rs2) (addOverflow (s.reg rs1) (s.reg rs2))

/-- `addi rd, rs1, imm` (R222): add immediate, signed. -/
def execAddi (rd rs1 : Reg) (imm : Imm) (s : State) : Result :=
  s.arith rd (s.reg rs1 + sext32 imm) (addOverflow (s.reg rs1) (sext32 imm))

/-- `addu rd, rs1, rs2` (R223): add unsigned. -/
def execAddu (rd rs1 rs2 : Reg) (s : State) : Result :=
  s.arith rd (s.reg rs1 + s.reg rs2) (adduOverflow (s.reg rs1) (s.reg rs2))

/-- `addui rd, rs1, imm` (R224): add unsigned immediate. -/
def execAddui (rd rs1 : Reg) (imm : Imm) (s : State) : Result :=
  s.arith rd (s.reg rs1 + zext32 imm) (adduOverflow (s.reg rs1) (zext32 imm))

/-- `sub rd, rs1, rs2` (R225): subtract, signed. -/
def execSub (rd rs1 rs2 : Reg) (s : State) : Result :=
  s.arith rd (s.reg rs1 - s.reg rs2) (subOverflow (s.reg rs1) (s.reg rs2))

/-- `subi rd, rs1, imm` (R226): subtract immediate, signed. -/
def execSubi (rd rs1 : Reg) (imm : Imm) (s : State) : Result :=
  s.arith rd (s.reg rs1 - sext32 imm) (subOverflow (s.reg rs1) (sext32 imm))

/-- `subu rd, rs1, rs2` (R227): subtract unsigned. -/
def execSubu (rd rs1 rs2 : Reg) (s : State) : Result :=
  s.arith rd (s.reg rs1 - s.reg rs2) (subuOverflow (s.reg rs1) (s.reg rs2))

/-- `subui rd, rs1, imm` (R228): subtract unsigned immediate. -/
def execSubui (rd rs1 : Reg) (imm : Imm) (s : State) : Result :=
  s.arith rd (s.reg rs1 - zext32 imm) (subuOverflow (s.reg rs1) (zext32 imm))

end Sys2Proof.Machine
end

