-- ==== Sys2Proof/Machine/ControlTransfer.lean ====
section
/-!
DEFINITION. The control transfer instructions (46_control_transfer.md). Targets are word addresses modulo
2^32, every value is legal (R290, R298), there is no delay slot (D6).
-/

namespace Sys2Proof.Machine

/-- `beqz rs1, imm` (R291): branches when all 32 bits of rs1 are zero. -/
def execBeqz (rs1 : Reg) (imm : Imm) (s : State) : Result :=
  .next (if s.reg rs1 = 0 then s.endJump (s.branchTarget imm) (s.savedBranchTarget imm) else s.endPlain)

/-- `bnez rs1, imm` (R292): branches when some bit of rs1 is not zero. -/
def execBnez (rs1 : Reg) (imm : Imm) (s : State) : Result :=
  .next (if s.reg rs1 ≠ 0 then s.endJump (s.branchTarget imm) (s.savedBranchTarget imm) else s.endPlain)

/-- `jr rs1, imm` (R293). It is also the return from a subroutine and from an interrupt, and has no
effect on ISCR (R297, R350). -/
def execJr (rs1 : Reg) (imm : Imm) (s : State) : Result :=
  .next (s.endJump (s.regPlus rs1 imm) (s.regPlus rs1 imm))

/-- `jsr rd, rs1, imm` (R294): the target is computed before rd receives the old PC (D5, D8). -/
def execJsr (rd rs1 : Reg) (imm : Imm) (s : State) : Result :=
  .next ((s.setReg rd s.readPc).endJump (s.regPlus rs1 imm) (s.regPlus rs1 imm))

/-- `trap rs1, imm` (R295): starts the interrupt routine at its own target; with GM = 0 a jump. -/
def execTrap (rs1 : Reg) (imm : Imm) (s : State) : Result :=
  .next (s.endTrap (s.regPlus rs1 imm))

end Sys2Proof.Machine
end

