-- ==== Sys2Proof/Machine/LoadImmediate.lean ====
section
/-!
DEFINITION. The load-immediate instructions (43_load_immediate.md): the immediate is or-ed into one byte of
the source (R250).
-/

namespace Sys2Proof.Machine

/-- `li1 rd, rs1, imm` (R251): into byte 1. -/
def execLi1 (rd rs1 : Reg) (imm : Imm) (s : State) : Result :=
  s.writeReg rd (s.reg rs1 ||| immInByte 1 imm)

/-- `li2 rd, rs1, imm` (R252): into byte 2. -/
def execLi2 (rd rs1 : Reg) (imm : Imm) (s : State) : Result :=
  s.writeReg rd (s.reg rs1 ||| immInByte 2 imm)

/-- `li3 rd, rs1, imm` (R253): into byte 3. -/
def execLi3 (rd rs1 : Reg) (imm : Imm) (s : State) : Result :=
  s.writeReg rd (s.reg rs1 ||| immInByte 3 imm)

end Sys2Proof.Machine
end

