-- ==== Sys2Proof/Machine/Logical.lean ====
section
/-!
DEFINITION. The logical instructions (42_logical.md): bit by bit, the immediate zero-extended (R240).
-/

namespace Sys2Proof.Machine

/-- `and rd, rs1, rs2` (R241): bitwise and. -/
def execAnd (rd rs1 rs2 : Reg) (s : State) : Result :=
  s.writeReg rd (s.reg rs1 &&& s.reg rs2)

/-- `andi rd, rs1, imm` (R242): and immediate. -/
def execAndi (rd rs1 : Reg) (imm : Imm) (s : State) : Result :=
  s.writeReg rd (s.reg rs1 &&& zext32 imm)

/-- `or rd, rs1, rs2` (R243): bitwise or. -/
def execOr (rd rs1 rs2 : Reg) (s : State) : Result :=
  s.writeReg rd (s.reg rs1 ||| s.reg rs2)

/-- `ori rd, rs1, imm` (R244): or immediate. -/
def execOri (rd rs1 : Reg) (imm : Imm) (s : State) : Result :=
  s.writeReg rd (s.reg rs1 ||| zext32 imm)

/-- `xor rd, rs1, rs2` (R245): bitwise exclusive or. -/
def execXor (rd rs1 rs2 : Reg) (s : State) : Result :=
  s.writeReg rd (s.reg rs1 ^^^ s.reg rs2)

/-- `xori rd, rs1, imm` (R246): exclusive or immediate. -/
def execXori (rd rs1 : Reg) (imm : Imm) (s : State) : Result :=
  s.writeReg rd (s.reg rs1 ^^^ zext32 imm)

end Sys2Proof.Machine
end

