-- ==== Sys2Proof/Machine/MemoryAccess.lean ====
section
/-!
DEFINITION. The memory access instructions (40_memory_access.md).
-/

namespace Sys2Proof.Machine

/-- `lw rd, rs1, imm` (R211): the word at rs1 plus displacement goes to rd. The read is made also
when rd = R0. -/
def execLw (rd rs1 : Reg) (imm : Imm) (s : State) : Result :=
  let (v, s') := s.memRead (s.regPlus rs1 imm)
  .next (s'.setReg rd v).endPlain

/-- `sw rs1, rs2, imm` (R212): rs2 is stored at rs1 plus displacement (C1). A store to program text
on a unified memory is refused (R164). -/
def execSw (rs1 rs2 : Reg) (imm : Imm) (s : State) : Result :=
  match s.memWrite (s.regPlus rs1 imm) (s.reg rs2) with
  | some s' => .next s'.endPlain
  | none => .refused .storeToProgramText

end Sys2Proof.Machine
end

