-- ==== Sys2Proof/Machine/Relational.lean ====
section
/-!
DEFINITION. The relational instructions (44_relational.md): signed, exact comparisons of 32-bit values with
a 0/1 result, the immediate sign-extended (R260).
-/

namespace Sys2Proof.Machine

/-- `slt rd, rs1, rs2` (R261): 1 if rs1 is less than rs2, else 0. -/
def execSlt (rd rs1 rs2 : Reg) (s : State) : Result :=
  s.writeReg rd (boolWord (decide ((s.reg rs1).toInt < (s.reg rs2).toInt)))

/-- `slti rd, rs1, imm` (R262): 1 if rs1 is less than the immediate, else 0. -/
def execSlti (rd rs1 : Reg) (imm : Imm) (s : State) : Result :=
  s.writeReg rd (boolWord (decide ((s.reg rs1).toInt < (sext32 imm).toInt)))

/-- `sle rd, rs1, rs2` (R263): 1 if rs1 is less than or equal to rs2, else 0. -/
def execSle (rd rs1 rs2 : Reg) (s : State) : Result :=
  s.writeReg rd (boolWord (decide ((s.reg rs1).toInt ≤ (s.reg rs2).toInt)))

/-- `slei rd, rs1, imm` (R264): 1 if rs1 is less than or equal to the immediate, else 0. -/
def execSlei (rd rs1 : Reg) (imm : Imm) (s : State) : Result :=
  s.writeReg rd (boolWord (decide ((s.reg rs1).toInt ≤ (sext32 imm).toInt)))

/-- `seq rd, rs1, rs2` (R265): 1 if rs1 is equal to rs2, else 0. -/
def execSeq (rd rs1 rs2 : Reg) (s : State) : Result :=
  s.writeReg rd (boolWord (decide (s.reg rs1 = s.reg rs2)))

/-- `seqi rd, rs1, imm` (R266): 1 if rs1 is equal to the immediate, else 0. -/
def execSeqi (rd rs1 : Reg) (imm : Imm) (s : State) : Result :=
  s.writeReg rd (boolWord (decide (s.reg rs1 = sext32 imm)))

/-- `sne rd, rs1, rs2` (R267): 1 if rs1 is not equal to rs2, else 0. -/
def execSne (rd rs1 rs2 : Reg) (s : State) : Result :=
  s.writeReg rd (boolWord (decide (s.reg rs1 ≠ s.reg rs2)))

/-- `snei rd, rs1, imm` (R268): 1 if rs1 is not equal to the immediate, else 0. -/
def execSnei (rd rs1 : Reg) (imm : Imm) (s : State) : Result :=
  s.writeReg rd (boolWord (decide (s.reg rs1 ≠ sext32 imm)))

/-- `sgt rd, rs1, rs2` (R269): 1 if rs1 is greater than rs2, else 0. -/
def execSgt (rd rs1 rs2 : Reg) (s : State) : Result :=
  s.writeReg rd (boolWord (decide ((s.reg rs1).toInt > (s.reg rs2).toInt)))

/-- `sgti rd, rs1, imm` (R270): 1 if rs1 is greater than the immediate, else 0. -/
def execSgti (rd rs1 : Reg) (imm : Imm) (s : State) : Result :=
  s.writeReg rd (boolWord (decide ((s.reg rs1).toInt > (sext32 imm).toInt)))

/-- `sge rd, rs1, rs2` (R271): 1 if rs1 is greater than or equal to rs2, else 0. -/
def execSge (rd rs1 rs2 : Reg) (s : State) : Result :=
  s.writeReg rd (boolWord (decide ((s.reg rs1).toInt ≥ (s.reg rs2).toInt)))

/-- `sgei rd, rs1, imm` (R272): 1 if rs1 is greater than or equal to the immediate, else 0. -/
def execSgei (rd rs1 : Reg) (imm : Imm) (s : State) : Result :=
  s.writeReg rd (boolWord (decide ((s.reg rs1).toInt ≥ (sext32 imm).toInt)))

end Sys2Proof.Machine
end

