-- ==== Sys2Proof/Machine/Shift.lean ====
section
/-!
DEFINITION. The shift and rotate instructions (45_shift.md): one bit position, no carry (R280).
-/

namespace Sys2Proof.Machine

/-- `shl rd, rs1` (R281): bits 30..0, then 0. -/
def execShl (rd rs1 : Reg) (s : State) : Result :=
  s.writeReg rd ((s.reg rs1).extractLsb' 0 31 ++ 0#1)

/-- `shrl rd, rs1` (R282): 0, then bits 31..1. -/
def execShrl (rd rs1 : Reg) (s : State) : Result :=
  s.writeReg rd (0#1 ++ (s.reg rs1).extractLsb' 1 31)

/-- `shra rd, rs1` (R283): bit 31, then bits 31..1. -/
def execShra (rd rs1 : Reg) (s : State) : Result :=
  s.writeReg rd ((s.reg rs1).extractLsb' 31 1 ++ (s.reg rs1).extractLsb' 1 31)

/-- `rotl rd, rs1` (R284): bits 30..0, then bit 31. -/
def execRotl (rd rs1 : Reg) (s : State) : Result :=
  s.writeReg rd ((s.reg rs1).extractLsb' 0 31 ++ (s.reg rs1).extractLsb' 31 1)

/-- `rotr rd, rs1` (R285): bit 0, then bits 31..1. -/
def execRotr (rd rs1 : Reg) (s : State) : Result :=
  s.writeReg rd ((s.reg rs1).extractLsb' 0 1 ++ (s.reg rs1).extractLsb' 1 31)

end Sys2Proof.Machine
end

