-- ==== Sys2Proof/Machine/SpecialRegister.lean ====
section
/-!
DEFINITION. The special-register access instructions (47_special_register.md). The four that write ISCR
forbid servicing in their own step (R316); `movs2i` does not.
-/

namespace Sys2Proof.Machine

/-- `intm imm` (R311): MASK receives imm[0]; imm[7:1] are not examined (D24). -/
def execIntm (imm : Imm) (s : State) : Result :=
  .next (s.setBit .mask (imm.getLsbD 0)).endIscrWrite

/-- `intgm imm` (R312): GM receives imm[0]. -/
def execIntgm (imm : Imm) (s : State) : Result :=
  .next (s.setBit .gm (imm.getLsbD 0)).endIscrWrite

/-- `trm imm` (R313): TRM receives imm[0]. -/
def execTrm (imm : Imm) (s : State) : Result :=
  .next (s.setBit .trm (imm.getLsbD 0)).endIscrWrite

/-- `movs2i rd` (R314): ISCR zero-extended. -/
def execMovs2i (rd : Reg) (s : State) : Result :=
  s.writeReg rd (s.iscr.setWidth 32)

/-- ISCR after `movi2s` of `v` (R315): GM, INI, NMI, MI, MASK and TRM are written, TRAP, UOE, ARE and
INC keep their values. -/
def movi2sIscr (old : Iscr) (v : Word) : Iscr := (old &&& 0x0E1) ||| (v.extractLsb' 0 10 &&& 0x31E)

/-- `movi2s rs2` (R315). -/
def execMovi2s (rs2 : Reg) (s : State) : Result :=
  .next { s with iscr := movi2sIscr s.iscr (s.reg rs2) }.endIscrWrite

end Sys2Proof.Machine
end

