-- ==== Sys2Proof/Machine/Dispatch.lean ====
section
/-!
DEFINITION. The instruction's meaning, one arm per constructor. `exec` is items 3 to 5 of the step
(60_exceptions.md R335): the instruction's writes, the interrupt decision and the entry if one starts.
-/

namespace Sys2Proof.Machine

def exec (i : Instr) (s : State) : Host.Outcome State Fault Refusal :=
  match i with
  | .lw rd rs1 imm => Sys2Proof.Machine.execLw rd rs1 imm s
  | .sw rs1 rs2 imm => Sys2Proof.Machine.execSw rs1 rs2 imm s
  | .add rd rs1 rs2 => Sys2Proof.Machine.execAdd rd rs1 rs2 s
  | .addi rd rs1 imm => Sys2Proof.Machine.execAddi rd rs1 imm s
  | .addu rd rs1 rs2 => Sys2Proof.Machine.execAddu rd rs1 rs2 s
  | .addui rd rs1 imm => Sys2Proof.Machine.execAddui rd rs1 imm s
  | .sub rd rs1 rs2 => Sys2Proof.Machine.execSub rd rs1 rs2 s
  | .subi rd rs1 imm => Sys2Proof.Machine.execSubi rd rs1 imm s
  | .subu rd rs1 rs2 => Sys2Proof.Machine.execSubu rd rs1 rs2 s
  | .subui rd rs1 imm => Sys2Proof.Machine.execSubui rd rs1 imm s
  | .and rd rs1 rs2 => Sys2Proof.Machine.execAnd rd rs1 rs2 s
  | .andi rd rs1 imm => Sys2Proof.Machine.execAndi rd rs1 imm s
  | .or rd rs1 rs2 => Sys2Proof.Machine.execOr rd rs1 rs2 s
  | .ori rd rs1 imm => Sys2Proof.Machine.execOri rd rs1 imm s
  | .xor rd rs1 rs2 => Sys2Proof.Machine.execXor rd rs1 rs2 s
  | .xori rd rs1 imm => Sys2Proof.Machine.execXori rd rs1 imm s
  | .li1 rd rs1 imm => Sys2Proof.Machine.execLi1 rd rs1 imm s
  | .li2 rd rs1 imm => Sys2Proof.Machine.execLi2 rd rs1 imm s
  | .li3 rd rs1 imm => Sys2Proof.Machine.execLi3 rd rs1 imm s
  | .slt rd rs1 rs2 => Sys2Proof.Machine.execSlt rd rs1 rs2 s
  | .slti rd rs1 imm => Sys2Proof.Machine.execSlti rd rs1 imm s
  | .sle rd rs1 rs2 => Sys2Proof.Machine.execSle rd rs1 rs2 s
  | .slei rd rs1 imm => Sys2Proof.Machine.execSlei rd rs1 imm s
  | .seq rd rs1 rs2 => Sys2Proof.Machine.execSeq rd rs1 rs2 s
  | .seqi rd rs1 imm => Sys2Proof.Machine.execSeqi rd rs1 imm s
  | .sne rd rs1 rs2 => Sys2Proof.Machine.execSne rd rs1 rs2 s
  | .snei rd rs1 imm => Sys2Proof.Machine.execSnei rd rs1 imm s
  | .sgt rd rs1 rs2 => Sys2Proof.Machine.execSgt rd rs1 rs2 s
  | .sgti rd rs1 imm => Sys2Proof.Machine.execSgti rd rs1 imm s
  | .sge rd rs1 rs2 => Sys2Proof.Machine.execSge rd rs1 rs2 s
  | .sgei rd rs1 imm => Sys2Proof.Machine.execSgei rd rs1 imm s
  | .shl rd rs1 => Sys2Proof.Machine.execShl rd rs1 s
  | .shrl rd rs1 => Sys2Proof.Machine.execShrl rd rs1 s
  | .shra rd rs1 => Sys2Proof.Machine.execShra rd rs1 s
  | .rotl rd rs1 => Sys2Proof.Machine.execRotl rd rs1 s
  | .rotr rd rs1 => Sys2Proof.Machine.execRotr rd rs1 s
  | .beqz rs1 imm => Sys2Proof.Machine.execBeqz rs1 imm s
  | .bnez rs1 imm => Sys2Proof.Machine.execBnez rs1 imm s
  | .jr rs1 imm => Sys2Proof.Machine.execJr rs1 imm s
  | .jsr rd rs1 imm => Sys2Proof.Machine.execJsr rd rs1 imm s
  | .trap rs1 imm => Sys2Proof.Machine.execTrap rs1 imm s
  | .intm imm => Sys2Proof.Machine.execIntm imm s
  | .intgm imm => Sys2Proof.Machine.execIntgm imm s
  | .trm imm => Sys2Proof.Machine.execTrm imm s
  | .movs2i rd => Sys2Proof.Machine.execMovs2i rd s
  | .movi2s rs2 => Sys2Proof.Machine.execMovi2s rs2 s

end Sys2Proof.Machine
end

