-- ==== Sys2Proof/Machine/Step.lean ====
section
/-!
DEFINITION. One step of the machine (60_exceptions.md R335).
-/

namespace Sys2Proof.Machine

/-- Fetch, decode and execute at the address in PC (R335 items 2 to 5). -/
def State.run (s : State) : Result :=
  match s.fetch with
  | none => .fault .fetchOutsideImage
  | some w =>
    match s.decode w with
    | .instr i => exec i s
    | .illegal => .next s.illegalWord
    | .malformed => .refused .malformedWord

/-- One step. If the environment raises a reset at this boundary, the step is the reset (R370; log
13); else its input is taken, requests are accepted, and one instruction runs. -/
def step (s : State) : Result :=
  match s.pendingReset with
  | some l => .next (s.takeInput.resetEvent l)
  | none => s.atBoundary.run

/-- `s` with the instruction word whose low `nbits` bits are those of `w`, the others 0, in the image
word that the next step fetches, and no reset event before that fetch (log 30). -/
def State.withFetchWord (s : State) (nbits w : Nat) : State :=
  s.withoutPendingReset.loadImageWord s.pc (BitVec.ofNat 32 (w % 2 ^ nbits))

end Sys2Proof.Machine
end

