-- ==== Sys2Proof/Machine/Idioms.lean ====
section
/-!
DEFINITION. The idioms of 30_encoding.md R195: what the constant zero in R0 makes of core instructions.
The source has no pseudo-instruction (R195, D23), so an idiom is no constructor and no mnemonic: it
is a core instruction with some operands fixed, and its words are that instruction's. The first four
are equivalences R195 derives from the instruction rules, the others stand in the source.
-/

namespace Sys2Proof.Idiom

/-- No operation: `add R0, R0, R0` (R195, R221). -/
def noOperation : Instr := .add 0 0 0

/-- Copy a register: `or rd, rs, R0` (R195, R243). -/
def copy (rd rs : Reg) : Instr := .or rd rs 0

/-- A constant 0..255: `ori rd, R0, imm` (R195, R244). -/
def smallConstant (rd : Reg) (imm : Imm) : Instr := .ori rd 0 imm

/-- An unconditional PC-relative branch: `beqz R0, imm` (R195, R291). -/
def branchAlways (imm : Imm) : Instr := .beqz 0 imm

/-- Memory-direct load: `lw rd, R0, imm` (R195, R210). -/
def loadDirect (rd : Reg) (imm : Imm) : Instr := .lw rd 0 imm

/-- Memory-direct store: `sw R0, rs2, imm` (R195, R210). -/
def storeDirect (rs2 : Reg) (imm : Imm) : Instr := .sw 0 rs2 imm

/-- Register-indirect load: displacement 0 (R195, R210). -/
def loadIndirect (rd rs1 : Reg) : Instr := .lw rd rs1 0

/-- Register-indirect store: displacement 0 (R195, R210). -/
def storeIndirect (rs1 rs2 : Reg) : Instr := .sw rs1 rs2 0

/-- Return from a subroutine called by `jsr R30`: `jr R30, 1` (R195, R296; under PC_READ_BIAS = 0). -/
def subroutineReturn : Instr := .jr 30 1

/-- Return from an interrupt, once the handler has added INC to R31: `jr R31, 0` (R195, R297). -/
def interruptReturn : Instr := .jr 31 0

/-- The immediate or-ed into byte `k`: `ori` is what an `li0` would be (R195, R254). -/
def loadByte (k : Fin 4) (rd rs1 : Reg) (imm : Imm) : Instr :=
  match k with
  | 0 => .ori rd rs1 imm
  | 1 => .li1 rd rs1 imm
  | 2 => .li2 rd rs1 imm
  | 3 => .li3 rd rs1 imm

/-- Byte `k` of a word. -/
def byteOf (v : Word) (k : Fin 4) : Imm := v.extractLsb' (8 * k.val) 8

/-- A 32-bit constant (R195, R254): one instruction for each byte listed, the first with source R0 and
the rest with source rd. -/
def constant (rd : Reg) (v : Word) : List (Fin 4) → List Instr
  | [] => []
  | k :: rest => loadByte k rd 0 (byteOf v k) :: rest.map fun j => loadByte j rd rd (byteOf v j)

end Sys2Proof.Idiom
end

