-- ==== Sys2Proof/Safety.lean ====
section
/-!
DEFINITION. The terms the statements use: when no request can be serviced, what "nothing else changed"
means, the shape of an instruction's result and of an interrupt entry, and the invariant of the
machine.
-/

namespace Sys2Proof.Machine

/-- No entry can follow an instruction that posts no request: the instruction is shielded (R358), or
GM is off (R336), or there is no serviceable NMI, MI or TRM request (R336, R333). -/
abbrev State.quiet (s : State) : Prop :=
  0 < s.shadow ∨ s.bit .gm = false ∨
    (s.bit .nmi = false ∧ (s.bit .mi = false ∨ s.bit .mask = false) ∧ s.bit .trm = false)

/-- An internal request is dropped (R338, R358): GM is off or the instruction is shielded. -/
abbrev State.dropsInternal (s : State) : Prop := 0 < s.shadow ∨ s.bit .gm = false

/-- An internal request is serviced (R336): GM is on and the instruction is not shielded. -/
abbrev State.takesInternal (s : State) : Prop := s.shadow = 0 ∧ s.bit .gm = true

/-- No entry can follow any of the next `n` instructions that post no request and write no ISCR: all of
them are shielded (R358), or no request can be serviced at all. -/
abbrev State.quietFor (s : State) (n : Nat) : Prop :=
  n ≤ s.shadow ∨ s.bit .gm = false ∨
    (s.bit .nmi = false ∧ (s.bit .mi = false ∨ s.bit .mask = false) ∧ s.bit .trm = false)

/-- The instructions of a list executed one after another, to the first that stops. -/
def execAll : List Instr → State → Result
  | [], s => .next s
  | i :: rest, s =>
    match exec i s with
    | .next t => execAll rest t
    | .fault r => .fault r
    | .refused r => .refused r

/-- Everything but the general registers, PC, ISCR, the shield and data memory is the same. Instruction
memory and the device values are compared byte by byte. -/
structure State.SameOutside (s t : State) : Prop where
  imem : ∀ key, t.imem.byte? key = s.imem.byte? key
  devices : ∀ key, t.devices.byte? key = s.devices.byte? key
  nmiLine : t.nmiLine = s.nmiLine
  miLine : t.miLine = s.miLine
  config : t.config = s.config
  env : t.env = s.env
  bus : t.bus = s.bus
  draws : t.draws = s.draws
  resets : t.resets = s.resets

/-- Every byte of data memory is the same: what is listed at each key, and so what is read there. -/
def State.SameData (s t : State) : Prop := ∀ key, t.dmem.byte? key = s.dmem.byte? key

/-- Every general register but `rd` is the same, and `rd` holds `v`; R0 holds 0 whatever `rd` is
(R121). -/
def State.OnlyReg (s t : State) (rd : Reg) (v : Word) : Prop :=
  ∀ q, t.reg q = if q = rd ∧ q ≠ 0#5 then v else s.reg q

/-- Every general register is the same. -/
def State.SameRegs (s t : State) : Prop := ∀ q, t.reg q = s.reg q

/-- `i` answers a next state that differs in rd, in PC (the next address) and in the shield (one
instruction of it used up), and in nothing else: no bit of ISCR, no byte of memory. -/
def WritesOnly (i : Instr) (s : State) (rd : Reg) (v : Word) : Prop :=
  ∃ t, exec i s = .next t ∧ s.OnlyReg t rd v ∧ t.pc = s.pc + 1 ∧ t.iscr = s.iscr ∧
    t.shadow = s.shadow - 1 ∧ s.SameData t ∧ s.SameOutside t

/-- `i` answers a next state that differs in PC, which is `target`, and in the shield only. -/
def GoesTo (i : Instr) (s : State) (target : Word) : Prop :=
  ∃ t, exec i s = .next t ∧ t.pc = target ∧ s.SameRegs t ∧ t.iscr = s.iscr ∧
    t.shadow = s.shadow - 1 ∧ s.SameData t ∧ s.SameOutside t

/-- `i` answers a next state at the next address in which every bit of ISCR is as `bits` says, with
no register and no byte of memory changed, and the shield set to ISCR_WRITE_SHADOW (R358). -/
def WritesIscr (i : Instr) (s : State) (bits : IscrBit → Bool) : Prop :=
  ∃ t, exec i s = .next t ∧ (∀ b, t.bit b = bits b) ∧ t.pc = s.pc + 1 ∧ s.SameRegs t ∧
    t.shadow = s.config.iscrWriteShadow ∧ s.SameData t ∧ s.SameOutside t

/-- ISCR of `t` is that of `s` after an entry (R340, R343, R344): GM off, INC and the three cause
indicators as given (in set-only mode an indicator that was on stays on), the other five unchanged. -/
structure State.IscrEntered (s t : State) (inc trap uoe are : Bool) : Prop where
  gm : t.bit .gm = false
  inc : t.bit .inc = inc
  trap : t.bit .trap = (trap || (decide (s.config.causeBits = .setOnly) && s.bit .trap))
  uoe : t.bit .uoe = (uoe || (decide (s.config.causeBits = .setOnly) && s.bit .uoe))
  are : t.bit .are = (are || (decide (s.config.causeBits = .setOnly) && s.bit .are))
  ini : t.bit .ini = s.bit .ini
  nmi : t.bit .nmi = s.bit .nmi
  mi : t.bit .mi = s.bit .mi
  mask : t.bit .mask = s.bit .mask
  trm : t.bit .trm = s.bit .trm

/-- `i` answers a next state in which an interrupt has been entered: rd holds `v`, then R31 the return
address `ret` (R340, D20), PC is the handler, ISCR is as entry leaves it, and nothing else differs. -/
def EntersAfter (i : Instr) (s : State) (rd : Reg) (v ret handler : Word)
    (inc trap uoe are : Bool) : Prop :=
  ∃ t, exec i s = .next t ∧
    (∀ q, t.reg q = if q = 31#5 then ret else if q = rd ∧ q ≠ 0#5 then v else s.reg q) ∧
    t.pc = handler ∧ s.IscrEntered t inc trap uoe are ∧ t.shadow = s.shadow - 1 ∧
    s.SameData t ∧ s.SameOutside t

end Sys2Proof.Machine

namespace Sys2Proof

open Machine

/-- The four ISCR-writing instructions (R112). -/
def Instr.isIscrWrite (i : Instr) : Bool := decide (i.op ∈ [Op.intm, .intgm, .trm, .movi2s])

/-- The instruction is a jump that is taken: the rows of R341 in which R31 receives the target. -/
def Instr.takenJump (i : Instr) (s : State) : Bool :=
  match i with
  | .jr _ _ | .jsr _ _ _ => true
  | .beqz rs1 _ => decide (s.reg rs1 = 0)
  | .bnez rs1 _ => decide (s.reg rs1 ≠ 0)
  | _ => false

/-- The address an entry in the instruction's step saves in R31 (the column "R31 <-" of R341): the target
of a jump that is taken, else the instruction's own address. After a taken branch it is A + sext_32(imm),
without PC_READ_BIAS (R290). -/
def Instr.returnAddress (i : Instr) (s : State) : Word :=
  match i with
  | .jr rs1 imm | .jsr _ rs1 imm => s.reg rs1 + imm.signExtend 32
  | .beqz rs1 imm =>
    if s.reg rs1 = 0 then s.pc + imm.signExtend 32 else s.pc
  | .bnez rs1 imm =>
    if s.reg rs1 ≠ 0 then s.pc + imm.signExtend 32 else s.pc
  | _ => s.pc

/-- The address an entry in the instruction's step puts in PC (R342): a trap's own target, INT_ADDR after
every other instruction, since TRAP outranks every other request (R322). -/
def Instr.entryAddress (i : Instr) (s : State) : Word :=
  match i with
  | .trap rs1 imm => s.reg rs1 + imm.signExtend 32
  | _ => s.config.intAddr

/-- The internal request the instruction posts in a state (R321, R324, R327): TRAP by `trap`, ARE by
an add or subtract that overflows, none by any other instruction. -/
def Instr.posts (i : Instr) (s : State) : Option Request :=
  let are (overflow : Bool) : Option Request := if overflow then some .are else none
  match i with
  | .trap rs1 imm => some (.trap (s.reg rs1 + imm.signExtend 32))
  | .add _ rs1 rs2 => are (addOverflow (s.reg rs1) (s.reg rs2))
  | .addi _ rs1 imm => are (addOverflow (s.reg rs1) (imm.signExtend 32))
  | .addu _ rs1 rs2 => are (adduOverflow (s.reg rs1) (s.reg rs2))
  | .addui _ rs1 imm => are (adduOverflow (s.reg rs1) (imm.setWidth 32))
  | .sub _ rs1 rs2 => are (subOverflow (s.reg rs1) (s.reg rs2))
  | .subi _ rs1 imm => are (subOverflow (s.reg rs1) (imm.signExtend 32))
  | .subu _ rs1 rs2 => are (subuOverflow (s.reg rs1) (s.reg rs2))
  | .subui _ rs1 imm => are (subuOverflow (s.reg rs1) (imm.setWidth 32))
  | _ => none

end Sys2Proof

namespace Sys2Proof.Machine

/-- The same state shielded from servicing for exactly this instruction: what the instruction does on
its own, before any entry. -/
def State.shielded (s : State) : State := { s with shadow := 1 }

/-- THE INVARIANT: the memories are in canonical form, the configuration is one the spec admits, the
shield is no longer than ISCR_WRITE_SHADOW, and in one-hot mode ISCR names at most one internal cause
and then has INC on (R323, R341, R343). -/
def State.inv (s : State) : Bool :=
  s.imem.wf && s.dmem.wf && s.devices.wf && s.config.wellFormed &&
    decide (s.shadow ≤ s.config.iscrWriteShadow) &&
    (decide (s.config.causeBits = .setOnly) || Iscr.causeConsistent s.iscr)

/-- A run is safe when no step of it stops: what a program must not do is leave its image, hold a
malformed word, or (on a unified memory) store to its own text. -/
def State.safeFor (s : State) (k : Nat) : Prop := ∃ t, Sys2Proof.core.run k s = .next t

end Sys2Proof.Machine
end

