-- ==== Sys2Proof/Certificates/Slice0/Obligations.lean ====
section
/-!
DEFINITION. The statements for the provers. Each docstring says what is stated and which sentence of
the spec it rests on. A statement whose docstring names a decision D<n> rests on that choice of the
spec's (its log entry is named in NOTES.md); all of them range over every value of the parameters of
00_scope.md R106, since the configuration is part of the state.
-/

open Sys2Proof Sys2Proof.Machine

/-! ## Encoding -/

/-- DECODE OF ENCODE (R187, R196): under any opcode map and any policy for unused fields, the word of
an instruction that is well formed under the map decodes to that instruction, whatever its operands. -/
def Obligations.DecodeOfEncodeIsTheInstruction : Prop :=
  ∀ (m : OpcodeMap) (p : UnusedFieldPolicy) (i : Instr),
    i.wellFormed m = true → decodeWord m p (encode m i) = .instr i

/-- ENCODE OF DECODE (R187, R184): a word the strict decoder accepts is the word of the instruction it
gives, so no bit of an accepted word is ignored and no two words stand for one instruction. -/
def Obligations.EncodeOfDecodeIsTheWord : Prop :=
  ∀ (m : OpcodeMap) (w : Word) (i : Instr),
    decodeWord m .refuse w = .instr i → encode m i = w

/-- Under a map whose 46 opcodes are pairwise different (R190) every instruction is well formed. -/
def Obligations.InjectiveMapGivesEveryInstructionAWord : Prop :=
  ∀ m : OpcodeMap, m.injective = true → ∀ i : Instr, i.wellFormed m = true

/-- THE DECODING PROCEDURE (R187, R188, R189; D1, D4, D25), case by case under a map with pairwise
different opcodes: an unassigned opcode is illegal under every policy; an assigned one gives its
instruction when the unused fields are zero, else what the policy says. -/
def Obligations.DecodingFollowsOpcodeThenUnusedFields : Prop :=
  ∀ (m : OpcodeMap) (p : UnusedFieldPolicy) (w : Word), m.injective = true →
    ((∀ o, m.code o ≠ w.extractLsb' 23 9) → decodeWord m p w = .illegal) ∧
    (∀ o, m.code o = w.extractLsb' 23 9 →
      o.operandClass.unusedZero (operandFields w) = true →
      decodeWord m p w = .instr (o.instr (operandFields w))) ∧
    (∀ o, m.code o = w.extractLsb' 23 9 →
      o.operandClass.unusedZero (operandFields w) = false →
      decodeWord m .refuse w = .malformed ∧ decodeWord m .uoe w = .illegal ∧
        decodeWord m .ignore w = .instr (o.instr (operandFields w)))

/-- Words written out in the spec decode to the instructions it writes beside them, one or more of
each family (R196, R211, R212, R222, R242, R251, R261, R281, R291, R294, R311, R315; the opcodes are
the defaults of D1 to D3), the all-zero word to none (R191) and a word with a non-zero unused field
to none (D4). -/
def Obligations.SpecWordsDecode : Prop :=
  decodeTableWord 32 0x0194400F = some (.lw 5 2 15) ∧
  decodeTableWord 32 0x0283BE01 = some (.sw 29 30 1) ∧
  decodeTableWord 32 0x108C20FE = some (.addi 3 1 0xFE) ∧
  decodeTableWord 32 0x18882020 = some (.andi 2 1 0x20) ∧
  decodeTableWord 32 0x1D840002 = some (.li1 1 0 2) ∧
  decodeTableWord 32 0x200C2200 = some (.slt 3 1 2) ∧
  decodeTableWord 32 0x300C2000 = some (.shl 3 1) ∧
  decodeTableWord 32 0x40802005 = some (.beqz 1 5) ∧
  decodeTableWord 32 0x49F880FC = some (.jsr 30 4 0xFC) ∧
  decodeTableWord 32 0x50800001 = some (.intm 1) ∧
  decodeTableWord 32 0x59000100 = some (.movi2s 1) ∧
  decodeTableWord 32 0 = none ∧ decodeTableWord 32 0x100C2201 = none

/-- The default opcode map keeps what the source constrains of any map (R190, last paragraph; the
numbers are D1 to D3): pairwise different opcodes, and each register/immediate pair on one op8 with
different sel. -/
def Obligations.DefaultOpcodesAreAdmissible : Prop := defaultOpcodes.admissible = true

/-! ## Reset -/

/-- THE STATE AFTER RESET (R371, R144; the spec's decisions D21 and D16): PC at INT_ADDR, which is 0 by
default, ISCR = 0x100 with INI alone on, R0 zero. The last clause, that no program text and no data word
is listed, is the MODEL's choice and not the spec's (log 30 for the image, which R371 has the environment
supply, log 6 for data memory, which R144 leaves unspecified). -/
def Obligations.ResetStateIsTheSpecs : Prop :=
  State.reset.pc = Config.default.intAddr ∧ State.reset.pc = 0x00000000 ∧
  State.reset.iscr = 0x100 ∧ (∀ b, State.reset.bit b = decide (b = .ini)) ∧
  State.reset.reg 0 = 0 ∧
  (∀ a, State.reset.imem.word? a = none ∧ State.reset.dmem.word? a = none)

/-- THE RESET EVENT (R370, R371; D21, log 13): a step at whose boundary the environment raises reset
answers the reset state: PC and ISCR at RESET_PC and RESET_ISCR, R0 zero and R1..R31 whatever the
environment supplies, instruction memory the image and data memory what it loads. -/
def Obligations.ResetEventEntersTheResetState : Prop :=
  ∀ (s : State) (l : ResetLoad), s.pendingReset = some l →
    ∃ t, step s = .next t ∧ t.pc = s.config.resetPc ∧ t.iscr = s.config.resetIscr ∧
      t.reg 0 = 0 ∧ (∀ (n : Nat) (hn : n < 31), t.reg (BitVec.ofNat 5 (n + 1)) = l.gpr[n]) ∧
      (∀ key, t.imem.byte? key = (Memory.load [] l.image).byte? key) ∧
      (∀ key, t.dmem.byte? key = (Memory.load [] l.data).byte? key) ∧
      t.config = s.config ∧ t.shadow = 0

/-- The machine after reset satisfies the invariant. -/
def Obligations.ResetSatisfiesTheInvariant : Prop := State.reset.inv = true

/-! ## Invariants of the step -/

/-- EVERY STEP KEEPS THE INVARIANT (R323, R341, R343, R151, R358; in one-hot mode, D14): from every
state in which the memories are canonical, the configuration admissible, the shield within its length
and ISCR naming at most one internal cause, with INC on when it names one, every next state is such a
state again. -/
def Obligations.EveryStepKeepsTheInvariant : Prop :=
  ∀ s t : State, s.inv = true → step s = .next t → t.inv = true

/-- NO PROGRAM CHANGES CODE OR CONFIGURATION (R151, R164): a step that is no reset leaves every byte
of instruction memory and every parameter as they were. -/
def Obligations.StepKeepsImageAndConfiguration : Prop :=
  ∀ s t : State, s.pendingReset = none → step s = .next t →
    (∀ key, t.imem.byte? key = s.imem.byte? key) ∧ t.config = s.config

/-! ## Memory -/

/-- WORD ACCESS (R152, R153): after a word is written, reading its address gives it and reading any
other address gives what it gave, listed or undefined. -/
def Obligations.WordReadAfterWordWrite : Prop :=
  ∀ (m : Memory) (undef : Nat → Byte) (a b v : Word),
    (m.putWord a v).wordOr undef b = (if b = a then v else m.wordOr undef b) ∧
    (m.putWord a v).word? b = (if b = a then some v else m.word? b)

/-- `lw` OF RAM (R211, R210; rd = rs1 by D8): with no request serviceable, rd receives the word at
rs1 + sext(imm) modulo 2^32 and nothing else changes; on a unified memory an address that holds
program text gives the text (R164; log 17). -/
def Obligations.LwLoadsTheAddressedWord : Prop :=
  ∀ (rd rs1 : Reg) (imm : Imm) (s : State) (a : Word),
    a = s.reg rs1 + imm.signExtend 32 → s.quiet →
    ((s.config.unifiedMemory = false ∨ s.imem.word? a = none) → s.kindAt a = .ram →
      WritesOnly (.lw rd rs1 imm) s rd (s.ramWord a)) ∧
    (∀ w, s.config.unifiedMemory = true → s.imem.word? a = some w →
      WritesOnly (.lw rd rs1 imm) s rd w)

/-- `lw` OF A DEVICE REGISTER OR OF NOTHING (R158, R211, U8, U11; log 9, 10): a device register gives
the value the environment drives, or a fresh free value, and the environment sees the read, also when
rd = R0; an address with nothing behind it gives a fresh free value. Never a fault. -/
def Obligations.LwReadsDevicesAndUnpopulatedAddresses : Prop :=
  ∀ (rd rs1 : Reg) (imm : Imm) (s : State) (a : Word),
    a = s.reg rs1 + imm.signExtend 32 → s.quiet →
    (s.config.unifiedMemory = false ∨ s.imem.word? a = none) →
    (∀ w, s.kindAt a = .device → s.devices.word? a = some w →
      ∃ t, exec (.lw rd rs1 imm) s = .next t ∧ s.OnlyReg t rd w ∧ t.pc = s.pc + 1 ∧
        t.iscr = s.iscr ∧ s.SameData t ∧ t.bus = s.bus ++ [.read a] ∧ t.draws = s.draws) ∧
    (s.kindAt a = .device → s.devices.word? a = none →
      ∃ t, exec (.lw rd rs1 imm) s = .next t ∧ s.OnlyReg t rd (Config.freeWord s.draws) ∧
        t.pc = s.pc + 1 ∧ t.iscr = s.iscr ∧ s.SameData t ∧ t.bus = s.bus ++ [.read a] ∧
        t.draws = s.draws + 1) ∧
    (s.kindAt a = .absent →
      ∃ t, exec (.lw rd rs1 imm) s = .next t ∧ s.OnlyReg t rd (Config.freeWord s.draws) ∧
        t.pc = s.pc + 1 ∧ t.iscr = s.iscr ∧ s.SameData t ∧ t.bus = s.bus ∧ t.draws = s.draws + 1)

/-- `sw` TO RAM (R212 with C1, R153): with no request serviceable, the word at rs1 + sext(imm) becomes
rs2, every byte of memory outside that word reads as before, and no register and no bit of ISCR
changes. -/
def Obligations.SwStoresTheWord : Prop :=
  ∀ (rs1 rs2 : Reg) (imm : Imm) (s : State) (a : Word),
    a = s.reg rs1 + imm.signExtend 32 → s.quiet →
    (s.config.unifiedMemory = false ∨ s.imem.word? a = none) → s.kindAt a = .ram →
    ∃ t, exec (.sw rs1 rs2 imm) s = .next t ∧
      t.dmem.word? a = some (s.reg rs2) ∧ t.ramWord a = s.reg rs2 ∧
      (∀ key, (∀ k, k < 4 → key ≠ 4 * a.toNat + k) → t.dmem.byte? key = s.dmem.byte? key) ∧
      (∀ b, b ≠ a → t.ramWord b = s.ramWord b) ∧
      s.SameRegs t ∧ t.pc = s.pc + 1 ∧ t.iscr = s.iscr ∧ t.shadow = s.shadow - 1 ∧
      s.SameOutside t

/-- `sw` TO A DEVICE REGISTER OR TO NOTHING (R158, U8, U11; log 9, 10): the first goes to the
environment, the second has no effect; neither changes a byte of memory. -/
def Obligations.SwReachesDevicesAndUnpopulatedAddresses : Prop :=
  ∀ (rs1 rs2 : Reg) (imm : Imm) (s : State) (a : Word),
    a = s.reg rs1 + imm.signExtend 32 → s.quiet →
    (s.config.unifiedMemory = false ∨ s.imem.word? a = none) →
    (s.kindAt a = .device →
      ∃ t, exec (.sw rs1 rs2 imm) s = .next t ∧ t.bus = s.bus ++ [.write a (s.reg rs2)] ∧
        s.SameRegs t ∧ t.pc = s.pc + 1 ∧ t.iscr = s.iscr ∧ s.SameData t) ∧
    (s.kindAt a = .absent → GoesTo (.sw rs1 rs2 imm) s (s.pc + 1))

/-- WHEN `sw` STOPS (R164, D9, U10): exactly at an address that holds program text on a unified memory;
never with two memories. -/
def Obligations.SwIsRefusedExactlyAtProgramText : Prop :=
  ∀ (rs1 rs2 : Reg) (imm : Imm) (s : State),
    exec (.sw rs1 rs2 imm) s = .refused .storeToProgramText ↔
      s.config.unifiedMemory = true ∧ (s.imem.word? (s.reg rs1 + imm.signExtend 32)).isSome = true

/-! ## Register instructions -/

/-- R0 IS HARDWIRED (R121): it reads 0 in every state and a write to it changes nothing in the machine;
what else the instruction does stands: `lw` to R0 makes its access at a device register, `jsr` with
rd = R0 jumps. (That an overflow into R0 posts ARE is part of ServicedOverflowEntersAre.) -/
def Obligations.RegisterZeroIsHardwired : Prop :=
  ∀ (rs1 : Reg) (imm : Imm) (s : State) (a v : Word),
    s.reg 0 = 0 ∧ s.setReg 0 v = s ∧
    (a = s.reg rs1 + imm.signExtend 32 → s.quiet →
      GoesTo (.jsr 0 rs1 imm) s a ∧
      ((s.config.unifiedMemory = false ∨ s.imem.word? a = none) → s.kindAt a = .device →
        ∃ t, exec (.lw 0 rs1 imm) s = .next t ∧ s.SameRegs t ∧ t.bus = s.bus ++ [.read a]))

/-- LOGICAL INSTRUCTIONS (R241 to R246): with no request serviceable each writes rd with the bitwise
and, or, exclusive or of rs1 with rs2 or the zero-extended immediate, and changes nothing else. With
rd = R0 nothing is written. -/
def Obligations.LogicalResults : Prop :=
  ∀ (rd rs1 rs2 : Reg) (imm : Imm) (s : State), s.quiet →
    WritesOnly (.and rd rs1 rs2) s rd (s.reg rs1 &&& s.reg rs2) ∧
    WritesOnly (.andi rd rs1 imm) s rd (s.reg rs1 &&& (0#24 ++ imm)) ∧
    WritesOnly (.or rd rs1 rs2) s rd (s.reg rs1 ||| s.reg rs2) ∧
    WritesOnly (.ori rd rs1 imm) s rd (s.reg rs1 ||| (0#24 ++ imm)) ∧
    WritesOnly (.xor rd rs1 rs2) s rd (s.reg rs1 ^^^ s.reg rs2) ∧
    WritesOnly (.xori rd rs1 imm) s rd (s.reg rs1 ^^^ (0#24 ++ imm))

/-- LOAD-IMMEDIATE INSTRUCTIONS (R251 to R253): the immediate is or-ed into byte 1, 2 or 3 of rs1. -/
def Obligations.LoadImmediateResults : Prop :=
  ∀ (rd rs1 : Reg) (imm : Imm) (s : State), s.quiet →
    WritesOnly (.li1 rd rs1 imm) s rd (s.reg rs1 ||| (0#16 ++ imm ++ 0#8)) ∧
    WritesOnly (.li2 rd rs1 imm) s rd (s.reg rs1 ||| (0#8 ++ imm ++ 0#16)) ∧
    WritesOnly (.li3 rd rs1 imm) s rd (s.reg rs1 ||| (imm ++ 0#24))

/-- RELATIONAL INSTRUCTIONS, REGISTER FORMS (R261, R263, R265, R267, R269, R271): rd receives 1 if the
signed comparison of rs1 with rs2 holds, else 0. -/
def Obligations.RelationalRegisterResults : Prop :=
  ∀ (rd rs1 rs2 : Reg) (s : State), s.quiet →
    WritesOnly (.slt rd rs1 rs2) s rd (if (s.reg rs1).toInt < (s.reg rs2).toInt then 1 else 0) ∧
    WritesOnly (.sle rd rs1 rs2) s rd (if (s.reg rs1).toInt ≤ (s.reg rs2).toInt then 1 else 0) ∧
    WritesOnly (.seq rd rs1 rs2) s rd (if s.reg rs1 = s.reg rs2 then 1 else 0) ∧
    WritesOnly (.sne rd rs1 rs2) s rd (if s.reg rs1 ≠ s.reg rs2 then 1 else 0) ∧
    WritesOnly (.sgt rd rs1 rs2) s rd (if (s.reg rs1).toInt > (s.reg rs2).toInt then 1 else 0) ∧
    WritesOnly (.sge rd rs1 rs2) s rd (if (s.reg rs1).toInt ≥ (s.reg rs2).toInt then 1 else 0)

/-- RELATIONAL INSTRUCTIONS, IMMEDIATE FORMS (R262, R264, R266, R268, R270, R272): as the register
forms, against the sign-extended immediate, whose value is the immediate's own signed value. -/
def Obligations.RelationalImmediateResults : Prop :=
  ∀ (rd rs1 : Reg) (imm : Imm) (s : State), s.quiet →
    WritesOnly (.slti rd rs1 imm) s rd (if (s.reg rs1).toInt < imm.toInt then 1 else 0) ∧
    WritesOnly (.slei rd rs1 imm) s rd (if (s.reg rs1).toInt ≤ imm.toInt then 1 else 0) ∧
    WritesOnly (.seqi rd rs1 imm) s rd (if (s.reg rs1).toInt = imm.toInt then 1 else 0) ∧
    WritesOnly (.snei rd rs1 imm) s rd (if (s.reg rs1).toInt ≠ imm.toInt then 1 else 0) ∧
    WritesOnly (.sgti rd rs1 imm) s rd (if (s.reg rs1).toInt > imm.toInt then 1 else 0) ∧
    WritesOnly (.sgei rd rs1 imm) s rd (if (s.reg rs1).toInt ≥ imm.toInt then 1 else 0)

/-- SHIFT AND ROTATE INSTRUCTIONS (R281 to R285): one place left or right, logical, arithmetic or
around. -/
def Obligations.ShiftResults : Prop :=
  ∀ (rd rs1 : Reg) (s : State), s.quiet →
    WritesOnly (.shl rd rs1) s rd (s.reg rs1 <<< 1) ∧
    WritesOnly (.shrl rd rs1) s rd (s.reg rs1 >>> 1) ∧
    WritesOnly (.shra rd rs1) s rd ((s.reg rs1).sshiftRight 1) ∧
    WritesOnly (.rotl rd rs1) s rd ((s.reg rs1).rotateLeft 1) ∧
    WritesOnly (.rotr rd rs1) s rd ((s.reg rs1).rotateRight 1)

/-! ## Arithmetic -/

/-- SIGNED ADD AND SUBTRACT WITHOUT OVERFLOW (R220, R221, R222, R225, R226; rd = rs by D8): when the
exact signed result lies in [-2^31, 2^31 - 1] and no request is serviceable, rd receives the word
whose signed value is that result, and nothing else changes. -/
def Obligations.SignedArithmeticWithoutOverflow : Prop :=
  ∀ (rd rs1 rs2 : Reg) (imm : Imm) (s : State), s.quiet →
    (∀ S : Int, S = (s.reg rs1).toInt + (s.reg rs2).toInt → -2 ^ 31 ≤ S → S ≤ 2 ^ 31 - 1 →
      ∃ v : Word, v.toInt = S ∧ WritesOnly (.add rd rs1 rs2) s rd v) ∧
    (∀ S : Int, S = (s.reg rs1).toInt + imm.toInt → -2 ^ 31 ≤ S → S ≤ 2 ^ 31 - 1 →
      ∃ v : Word, v.toInt = S ∧ WritesOnly (.addi rd rs1 imm) s rd v) ∧
    (∀ S : Int, S = (s.reg rs1).toInt - (s.reg rs2).toInt → -2 ^ 31 ≤ S → S ≤ 2 ^ 31 - 1 →
      ∃ v : Word, v.toInt = S ∧ WritesOnly (.sub rd rs1 rs2) s rd v) ∧
    (∀ S : Int, S = (s.reg rs1).toInt - imm.toInt → -2 ^ 31 ≤ S → S ≤ 2 ^ 31 - 1 →
      ∃ v : Word, v.toInt = S ∧ WritesOnly (.subi rd rs1 imm) s rd v)

/-- UNSIGNED ADD AND SUBTRACT WITHOUT OVERFLOW (R220 with C2, R223, R224, R227, R228; rd = rs by D8):
when the exact unsigned result lies in [0, 2^32 - 1] and no request is serviceable, rd receives it,
and nothing else changes. -/
def Obligations.UnsignedArithmeticWithoutOverflow : Prop :=
  ∀ (rd rs1 rs2 : Reg) (imm : Imm) (s : State), s.quiet →
    ((s.reg rs1).toNat + (s.reg rs2).toNat ≤ 2 ^ 32 - 1 →
      ∃ v : Word, v.toNat = (s.reg rs1).toNat + (s.reg rs2).toNat ∧
        WritesOnly (.addu rd rs1 rs2) s rd v) ∧
    ((s.reg rs1).toNat + imm.toNat ≤ 2 ^ 32 - 1 →
      ∃ v : Word, v.toNat = (s.reg rs1).toNat + imm.toNat ∧
        WritesOnly (.addui rd rs1 imm) s rd v) ∧
    ((s.reg rs2).toNat ≤ (s.reg rs1).toNat →
      ∃ v : Word, v.toNat = (s.reg rs1).toNat - (s.reg rs2).toNat ∧
        WritesOnly (.subu rd rs1 rs2) s rd v) ∧
    (imm.toNat ≤ (s.reg rs1).toNat →
      ∃ v : Word, v.toNat = (s.reg rs1).toNat - imm.toNat ∧
        WritesOnly (.subui rd rs1 imm) s rd v)

/-- THE BIT-LEVEL OVERFLOW TESTS (R220, the spec's own derivation): signed add overflows iff the
operands have one sign and the result the other, signed subtract iff the operands differ in sign and
the result differs from the first, unsigned add iff there is a carry out of bit 31, unsigned subtract
iff there is a borrow. -/
def Obligations.OverflowTestsAgreeWithTheBits : Prop :=
  ∀ a b : Word,
    (addOverflow a b = true ↔ a.getLsbD 31 = b.getLsbD 31 ∧ (a + b).getLsbD 31 ≠ a.getLsbD 31) ∧
    (subOverflow a b = true ↔ a.getLsbD 31 ≠ b.getLsbD 31 ∧ (a - b).getLsbD 31 ≠ a.getLsbD 31) ∧
    (adduOverflow a b = true ↔ (a.setWidth 33 + b.setWidth 33).getLsbD 32 = true) ∧
    (subuOverflow a b = true ↔ (a.setWidth 33 - b.setWidth 33).getLsbD 32 = true)

/-- AN OVERFLOW THAT IS NOT SERVICED (R230, R338; D12, D13): with GM off, or in the shadow of an ISCR
write (log 23), the overflowing instruction writes the wrapped result if ARE_WRITEBACK, leaves rd if
not, and goes on; nothing is recorded. -/
def Obligations.UnservicedOverflowGoesOn : Prop :=
  ∀ (rd rs1 rs2 : Reg) (imm : Imm) (s : State) (x y z : Word), s.dropsInternal →
    x = s.reg rs1 → y = s.reg rs2 → z = imm.signExtend 32 →
    let kept (v : Word) : Word := if s.config.areWriteback then v else s.reg rd
    (addOverflow x y = true → WritesOnly (.add rd rs1 rs2) s rd (kept (x + y))) ∧
    (addOverflow x z = true → WritesOnly (.addi rd rs1 imm) s rd (kept (x + z))) ∧
    (subOverflow x y = true → WritesOnly (.sub rd rs1 rs2) s rd (kept (x - y))) ∧
    (subOverflow x z = true → WritesOnly (.subi rd rs1 imm) s rd (kept (x - z))) ∧
    (2 ^ 32 - 1 < x.toNat + y.toNat → WritesOnly (.addu rd rs1 rs2) s rd (kept (x + y))) ∧
    (2 ^ 32 - 1 < x.toNat + imm.toNat →
      WritesOnly (.addui rd rs1 imm) s rd (kept (x + imm.setWidth 32))) ∧
    (x.toNat < y.toNat → WritesOnly (.subu rd rs1 rs2) s rd (kept (x - y))) ∧
    (x.toNat < imm.toNat → WritesOnly (.subui rd rs1 imm) s rd (kept (x - imm.setWidth 32)))

/-- AN OVERFLOW THAT IS SERVICED (R230, R340, R341, R342, R343; D12, D14, D15, D20): with GM on and no
shield, the instruction writes rd as above and ARE is entered: R31 = its own address, INC = 1, ARE on,
GM off, PC = INT_ADDR, also when rd is R0 or R31 and whatever NMI, MI and TRM are. -/
def Obligations.ServicedOverflowEntersAre : Prop :=
  ∀ (rd rs1 rs2 : Reg) (imm : Imm) (s : State) (x y z : Word), s.takesInternal →
    x = s.reg rs1 → y = s.reg rs2 → z = imm.signExtend 32 →
    let enters (i : Instr) (v : Word) : Prop :=
      EntersAfter i s rd (if s.config.areWriteback then v else s.reg rd) s.pc s.config.intAddr
        true false false true
    (addOverflow x y = true → enters (.add rd rs1 rs2) (x + y)) ∧
    (addOverflow x z = true → enters (.addi rd rs1 imm) (x + z)) ∧
    (subOverflow x y = true → enters (.sub rd rs1 rs2) (x - y)) ∧
    (subOverflow x z = true → enters (.subi rd rs1 imm) (x - z)) ∧
    (2 ^ 32 - 1 < x.toNat + y.toNat → enters (.addu rd rs1 rs2) (x + y)) ∧
    (2 ^ 32 - 1 < x.toNat + imm.toNat → enters (.addui rd rs1 imm) (x + imm.setWidth 32)) ∧
    (x.toNat < y.toNat → enters (.subu rd rs1 rs2) (x - y)) ∧
    (x.toNat < imm.toNat → enters (.subui rd rs1 imm) (x - imm.setWidth 32))

/-! ## Control transfer -/

/-- CONDITIONAL BRANCHES (R291, R292; the value read as PC is D5's, for either PC_READ_BIAS): to
PC + sext(imm) modulo 2^32 when all bits of rs1 are zero (`beqz`) or some bit is not (`bnez`), else to
the next address; no register, no memory and no bit of ISCR changes. -/
def Obligations.ConditionalBranches : Prop :=
  ∀ (rs1 : Reg) (imm : Imm) (s : State) (target : Word), s.quiet →
    target = s.pc + BitVec.ofNat 32 s.config.pcReadBias.val + imm.signExtend 32 →
    (s.reg rs1 = 0 → GoesTo (.beqz rs1 imm) s target ∧ GoesTo (.bnez rs1 imm) s (s.pc + 1)) ∧
    (s.reg rs1 ≠ 0 → GoesTo (.beqz rs1 imm) s (s.pc + 1) ∧ GoesTo (.bnez rs1 imm) s target)

/-- `jr` (R293): PC becomes rs1 + sext(imm) modulo 2^32; nothing else changes, in particular no bit of
ISCR. -/
def Obligations.JrGoesToRegisterPlusDisplacement : Prop :=
  ∀ (rs1 : Reg) (imm : Imm) (s : State), s.quiet →
    GoesTo (.jr rs1 imm) s (s.reg rs1 + imm.signExtend 32)

/-- `jsr` (R294; the saved PC is D5's, for either PC_READ_BIAS, and rs1 is read first by D8): rd
receives the old PC and PC becomes the OLD rs1 + sext(imm), also when rd = rs1; with rd = R0 it acts
as `jr`. -/
def Obligations.JsrLinksAndJumps : Prop :=
  ∀ (rd rs1 : Reg) (imm : Imm) (s : State), s.quiet →
    ∃ t, exec (.jsr rd rs1 imm) s = .next t ∧ t.pc = s.reg rs1 + imm.signExtend 32 ∧
      s.OnlyReg t rd (s.pc + BitVec.ofNat 32 s.config.pcReadBias.val) ∧ t.iscr = s.iscr ∧
      t.shadow = s.shadow - 1 ∧ s.SameData t ∧ s.SameOutside t

/-- `trap` SERVICED (R295, R327, R342; D14, D15): with GM on and no shield, whatever NMI, MI and TRM
are, R31 = the trap's own address, INC = 1, TRAP on, UOE and ARE off (one-hot), GM off, and PC is the
target computed from the old rs1, also when rs1 is R31. -/
def Obligations.ServicedTrapEntersItsTarget : Prop :=
  ∀ (rs1 : Reg) (imm : Imm) (s : State), s.takesInternal →
    EntersAfter (.trap rs1 imm) s 0 0 s.pc (s.reg rs1 + imm.signExtend 32) true true false false

/-- `trap` NOT SERVICED (R295, R338; D13): with GM off, or in the shadow of an ISCR write (log 23), it
is a jump: R31 and ISCR are unchanged. -/
def Obligations.UnservicedTrapIsAJump : Prop :=
  ∀ (rs1 : Reg) (imm : Imm) (s : State), s.dropsInternal →
    GoesTo (.trap rs1 imm) s (s.reg rs1 + imm.signExtend 32)

/-! ## Special register -/

/-- `intm`, `intgm`, `trm` (R311, R312, R313; imm[7:1] not examined, D24): MASK, GM or TRM receives
imm[0], the other nine bits are unchanged, and no entry follows, whatever ISCR held. -/
def Obligations.MaskInstructionsWriteOneBit : Prop :=
  ∀ (imm : Imm) (s : State),
    WritesIscr (.intm imm) s (fun b => if b = .mask then imm.getLsbD 0 else s.bit b) ∧
    WritesIscr (.intgm imm) s (fun b => if b = .gm then imm.getLsbD 0 else s.bit b) ∧
    WritesIscr (.trm imm) s (fun b => if b = .trm then imm.getLsbD 0 else s.bit b)

/-- `movs2i` (R314): rd receives ISCR under 22 zeros and ISCR is not changed; and it does not inhibit
servicing: with GM on, no shield and NMI on, its step ends in the handler. -/
def Obligations.Movs2iReadsIscr : Prop :=
  ∀ (rd : Reg) (s : State),
    (s.quiet → WritesOnly (.movs2i rd) s rd (0#22 ++ s.iscr)) ∧
    (s.takesInternal → s.bit .nmi = true →
      ∃ t, exec (.movs2i rd) s = .next t ∧ t.pc = s.config.intAddr ∧ t.bit .gm = false ∧
        (rd ≠ 0 → rd ≠ 31 → t.reg rd = 0#22 ++ s.iscr))

/-- `movi2s` (R315): GM, INI, NMI, MI, MASK and TRM receive their bits of rs2; TRAP, UOE, ARE and INC
keep their values; no entry follows, whatever ISCR held. -/
def Obligations.Movi2sWritesTheSixWritableBits : Prop :=
  ∀ (rs2 : Reg) (s : State),
    WritesIscr (.movi2s rs2) s (fun b =>
      match b with
      | .gm => (s.reg rs2).getLsbD 9
      | .ini => (s.reg rs2).getLsbD 8
      | .nmi => (s.reg rs2).getLsbD 4
      | .mi => (s.reg rs2).getLsbD 3
      | .mask => (s.reg rs2).getLsbD 2
      | .trm => (s.reg rs2).getLsbD 1
      | .trap | .uoe | .are | .inc => s.bit b)

/-- NO SERVICING IN THE STEP OF AN ISCR WRITE (R316, R337): after each of the four instructions, in
every state, the next instruction is at PC + 1, no register is written, and TRAP, UOE, ARE and INC,
which every entry loads, are as before. -/
def Obligations.IscrWriteIsNotFollowedByAnEntry : Prop :=
  ∀ (i : Instr) (s : State), i.isIscrWrite = true →
    ∃ t, exec i s = .next t ∧ t.pc = s.pc + 1 ∧ s.SameRegs t ∧
      t.bit .trap = s.bit .trap ∧ t.bit .uoe = s.bit .uoe ∧ t.bit .are = s.bit .are ∧
      t.bit .inc = s.bit .inc

/-! ## Interrupts -/

/-- THE DECISION (R336, R322, R333, R337, R338; D17): nothing in the step of an ISCR write, in its
shadow, or with GM off; else TRAP, UOE or ARE if posted, else NMI, else MI if MASK is on, else TRM,
else nothing. -/
def Obligations.DecisionTakesTheHighestRequest : Prop :=
  ∀ (s : State) (e : Ending),
    (e.writesIscr = true ∨ 0 < s.shadow ∨ s.bit .gm = false → s.servicedCause e = none) ∧
    (e.writesIscr = false → s.takesInternal →
      (∀ a, e.request = some (.trap a) → s.servicedCause e = some (.trap a)) ∧
      (e.request = some .uoe → s.servicedCause e = some .uoe) ∧
      (e.request = some .are → s.servicedCause e = some .are) ∧
      (e.request = none →
        (s.bit .nmi = true → s.servicedCause e = some .nmi) ∧
        (s.bit .nmi = false → s.bit .mi = true → s.bit .mask = true →
          s.servicedCause e = some .mi) ∧
        (s.bit .nmi = false → (s.bit .mi = false ∨ s.bit .mask = false) → s.bit .trm = true →
          s.servicedCause e = some .trm) ∧
        (s.bit .nmi = false → (s.bit .mi = false ∨ s.bit .mask = false) → s.bit .trm = false →
          s.servicedCause e = none)))

/-- GM GATES EXTERNAL REQUESTS, MASK GATES MI AND NOT NMI (R332, R333, R336; that the lines are sampled
at a step boundary is the spec's decision D17, D18, log 24): while GM is off a boundary records no
external request, whatever the lines, and nothing is serviced; with GM on an active line is recorded
whatever MASK is; MI is serviced only with GM and MASK on; an NMI with no internal request beside it is
serviced whatever MASK is. -/
def Obligations.GmGatesAcceptanceAndMaskGatesServicing : Prop :=
  ∀ s : State,
    (s.bit .gm = false → s.atBoundary.iscr = s.iscr ∧ ∀ e, s.atBoundary.servicedCause e = none) ∧
    (s.bit .gm = true →
      (s.takeInput.nmiLine = true → s.atBoundary.bit .nmi = true) ∧
      (s.takeInput.miLine = true → s.atBoundary.bit .mi = true)) ∧
    (∀ e, s.servicedCause e = some .mi → s.bit .gm = true ∧ s.bit .mask = true) ∧
    (∀ e, s.takesInternal → e.writesIscr = false → e.request = none → s.bit .nmi = true →
      s.servicedCause e = some .nmi)

/-- INTERRUPTS ARE PRECISE (R345, R340 to R344; R290; D5, D14, D15, D17, D19, D20). Let u be the state
after the instruction executed on its own (shielded from servicing). With GM on and no shield, an
instruction that is not an ISCR write completes as in u, in memory and in every register but R31, and
then: if it posted TRAP or ARE that is entered; else if NMI, or MI with MASK, or TRM is on, INT_ADDR is
entered with the cause indicators cleared (one-hot) and R31 as R341's table has it, and R31 + INC is the
address u would have gone on at, but after a taken beqz or bnez under PC_READ_BIAS = 1, whose bias R31
does not carry; else the state is u's. -/
def Obligations.InterruptsArePrecise : Prop :=
  ∀ (i : Instr) (s u : State), i.isIscrWrite = false → s.shadow = 0 → s.bit .gm = true →
    exec i s.shielded = .next u →
    ∃ t, exec i s = .next t ∧ u.SameData t ∧ u.SameOutside t ∧ t.shadow = 0 ∧
      (∀ q, q ≠ 31#5 → t.reg q = u.reg q) ∧
      (∀ a, i.posts s = some (.trap a) →
        t.pc = a ∧ t.reg 31 = s.pc ∧ s.IscrEntered t true true false false) ∧
      (i.posts s = some .are →
        t.pc = s.config.intAddr ∧ t.reg 31 = s.pc ∧ s.IscrEntered t true false false true) ∧
      (i.posts s = none →
        (s.bit .nmi = true ∨ (s.bit .mi = true ∧ s.bit .mask = true) ∨ s.bit .trm = true →
          t.pc = s.config.intAddr ∧ s.IscrEntered t (!i.takenJump s) false false false ∧
          t.reg 31 = i.returnAddress s ∧
          (s.config.pcReadBias = 0 ∨ (i.op ≠ .beqz ∧ i.op ≠ .bnez) ∨ i.takenJump s = false →
            t.reg 31 + (if t.bit .inc then 1 else 0) = u.pc)) ∧
        (s.bit .nmi = false → (s.bit .mi = false ∨ s.bit .mask = false) → s.bit .trm = false →
          t.pc = u.pc ∧ t.iscr = u.iscr ∧ t.reg 31 = u.reg 31))

/-- AN ILLEGAL WORD THAT IS SERVICED (R188, R326, R340 to R343; D14, D15): its step enters UOE, with
R31 the address of the word and INC = 1; no other register and no byte of memory changes. -/
def Obligations.IllegalWordEntersUoe : Prop :=
  ∀ (s b : State) (w : Word), s.pendingReset = none → b = s.atBoundary → b.fetch = some w →
    b.decode w = .illegal → b.takesInternal →
    ∃ t, step s = .next t ∧ t.pc = s.config.intAddr ∧
      (∀ q, t.reg q = if q = 31#5 then s.pc else s.reg q) ∧
      b.IscrEntered t true false true false ∧ s.SameData t ∧ b.SameOutside t

/-- AN ILLEGAL WORD THAT IS NOT SERVICED (R326, R338; D13, U2): it changes nothing and execution
continues at PC + 1. -/
def Obligations.UnservicedIllegalWordIsSkipped : Prop :=
  ∀ (s b : State) (w : Word), s.pendingReset = none → b = s.atBoundary → b.fetch = some w →
    b.decode w = .illegal → b.dropsInternal →
    ∃ t, step s = .next t ∧ t.pc = s.pc + 1 ∧ s.SameRegs t ∧ t.iscr = b.iscr ∧ s.SameData t ∧
      b.SameOutside t

/-! ## The step -/

/-- THE BOUNDARY OF A STEP (R331, R332, R333, R359; D17, D18; the queue of inputs is the model's, log 11):
the environment's next input, if there is one, sets the lines and drives the device words it lists, the
last value listed for a word standing, and is taken off the queue; with none queued lines and device
values stay. Then, with GM on, an active line sets its indicator, whatever MASK is. Nothing else changes:
no other device byte, no other bit of ISCR, no register, no byte of either memory, not PC, nor any other
field. -/
def Obligations.BoundaryAcceptsRequests : Prop :=
  ∀ (s b : State), b = s.atBoundary →
    (s.env = [] → b.nmiLine = s.nmiLine ∧ b.miLine = s.miLine ∧ b.env = [] ∧
      ∀ key, b.devices.byte? key = s.devices.byte? key) ∧
    (∀ e rest, s.env = e :: rest →
      b.nmiLine = e.nmiLine ∧ b.miLine = e.miLine ∧ b.env = rest ∧
      (∀ a v, e.devices.reverse.lookup a = some v → b.devices.word? a = some v) ∧
      (∀ key, (∀ p ∈ e.devices, ∀ k, k < 4 → key ≠ 4 * p.1.toNat + k) →
        b.devices.byte? key = s.devices.byte? key)) ∧
    b.bit .nmi = (s.bit .nmi || (s.bit .gm && b.nmiLine)) ∧
    b.bit .mi = (s.bit .mi || (s.bit .gm && b.miLine)) ∧
    (∀ c, c ≠ .nmi → c ≠ .mi → b.bit c = s.bit c) ∧
    b.pc = s.pc ∧ s.SameRegs b ∧ s.SameData b ∧ b.shadow = s.shadow ∧
    (∀ key, b.imem.byte? key = s.imem.byte? key) ∧
    b.config = s.config ∧ b.bus = s.bus ∧ b.draws = s.draws ∧ b.resets = s.resets

/-- A STEP RUNS THE DECODED INSTRUCTION (R335; D17): where no reset is raised and the word at PC decodes
to an instruction, the step is that instruction's `exec` in the boundary state. -/
def Obligations.StepRunsTheDecodedInstruction : Prop :=
  ∀ (s : State) (w : Word) (i : Instr), s.pendingReset = none → s.imem.word? s.pc = some w →
    decodeWord s.config.opcodes s.config.unusedFields w = .instr i →
    step s = exec i s.atBoundary

/-- WHERE A STEP STOPS (R150, R189; U1, U9): with no reset raised, it faults when the image has no word
at PC and refuses when that word is malformed. -/
def Obligations.StepStopsOutsideTheImageAndAtMalformedWords : Prop :=
  ∀ s : State, s.pendingReset = none →
    (s.imem.word? s.pc = none → step s = .fault .fetchOutsideImage) ∧
    (∀ w, s.imem.word? s.pc = some w →
      decodeWord s.config.opcodes s.config.unusedFields w = .malformed →
      step s = .refused .malformedWord)

/-- NO INSTRUCTION FAULTS (R157, R325, R353): `exec` never answers a fault, and refuses nothing but a
store to program text on a unified memory; so under the default configuration every instruction
answers a next state. -/
def Obligations.NoInstructionFaults : Prop :=
  ∀ (i : Instr) (s : State),
    (∀ f, exec i s ≠ .fault f) ∧
    (∀ r, exec i s = .refused r → r = .storeToProgramText ∧ s.config.unifiedMemory = true ∧
      ∃ rs1 rs2 imm, i = .sw rs1 rs2 imm) ∧
    (s.config.unifiedMemory = false → ∃ t, exec i s = .next t)

/-! ## Rules of the whole machine -/

/-- THE HARDWARE INDICATORS CHANGE ONLY AT ENTRY (R141, R133 to R135, R140, R315, R340 to R342; R290;
D5, D15): if a step that is no reset changes TRAP, UOE, ARE or INC, it entered an interrupt. The word at
PC is an illegal word or an instruction that does not write ISCR; GM was on and is off; PC is INT_ADDR,
or a trap's own target; R31 is the return address of R341. -/
def Obligations.CauseBitsChangeOnlyAtEntry : Prop :=
  ∀ s t : State, s.pendingReset = none → step s = .next t →
    (t.bit .trap ≠ s.bit .trap ∨ t.bit .uoe ≠ s.bit .uoe ∨ t.bit .are ≠ s.bit .are ∨
      t.bit .inc ≠ s.bit .inc) →
    s.bit .gm = true ∧ t.bit .gm = false ∧
    ∃ w, s.imem.word? s.pc = some w ∧
      ((decodeWord s.config.opcodes s.config.unusedFields w = .illegal ∧
          t.pc = s.config.intAddr ∧ t.reg 31 = s.pc) ∨
       (∃ i, decodeWord s.config.opcodes s.config.unusedFields w = .instr i ∧
          i.isIscrWrite = false ∧ t.pc = i.entryAddress s ∧ t.reg 31 = i.returnAddress s))

/-- GM IS SWITCHED ON ONLY BY SOFTWARE (R131, R141, R346): a step that is no reset and switches GM on
executed `intgm` with imm[0] = 1 or `movi2s` of a value with bit 9 on. -/
def Obligations.GmIsSwitchedOnOnlyByIntgmAndMovi2s : Prop :=
  ∀ s t : State, s.pendingReset = none → step s = .next t → s.bit .gm = false →
    t.bit .gm = true →
    ∃ w i, s.imem.word? s.pc = some w ∧
      decodeWord s.config.opcodes s.config.unusedFields w = .instr i ∧
      ((∃ imm : Imm, i = .intgm imm ∧ imm.getLsbD 0 = true) ∨
       (∃ rs2, i = .movi2s rs2 ∧ (s.reg rs2).getLsbD 9 = true))

/-- HARDWARE NEVER CLEARS INI, NMI, MI, MASK OR TRM (R141, R344; D19): a step that is no reset and does
not execute `intm`, `trm` or `movi2s` leaves INI, MASK and TRM as they were and clears neither NMI nor
MI, also when it enters an interrupt. -/
def Obligations.OnlySoftwareClearsRequestsAndMasks : Prop :=
  ∀ s t : State, s.pendingReset = none → step s = .next t →
    (∀ w i, s.imem.word? s.pc = some w →
      decodeWord s.config.opcodes s.config.unusedFields w = .instr i →
      i.op ≠ .intm ∧ i.op ≠ .trm ∧ i.op ≠ .movi2s) →
    t.bit .ini = s.bit .ini ∧ t.bit .mask = s.bit .mask ∧ t.bit .trm = s.bit .trm ∧
      (s.bit .nmi = true → t.bit .nmi = true) ∧ (s.bit .mi = true → t.bit .mi = true)

/-- DATA MEMORY IS WRITTEN BY `sw` ALONE (R151, R210): no other instruction changes a byte of it, also
when an interrupt is entered after it (R340: nothing is pushed). -/
def Obligations.DataMemoryChangesOnlyBySw : Prop :=
  ∀ (i : Instr) (s t : State), exec i s = .next t → i.op ≠ .sw → s.SameData t

/-- AN INSTRUCTION CHANGES AT MOST ITS rd AND R31, AND R31 OTHERWISE ONLY BY ENTRY (R123, R125, R340,
R341; R290; D5, D15): every register but rd and R31 is as before, whether or not an interrupt is entered;
and if R31 changes and is not the rd, an interrupt was entered: the instruction does not write ISCR, GM
was on and is off, PC is the handler's address and R31 the return address. -/
def Obligations.RegistersChangeOnlyAsDestinationOrR31 : Prop :=
  ∀ (i : Instr) (s t : State), exec i s = .next t →
    (∀ q, q ≠ i.fields.rd → q ≠ 31#5 → t.reg q = s.reg q) ∧
    (i.fields.rd ≠ 31#5 → t.reg 31 ≠ s.reg 31 →
      i.isIscrWrite = false ∧ s.bit .gm = true ∧ t.bit .gm = false ∧
      t.pc = i.entryAddress s ∧ t.reg 31 = i.returnAddress s)

/-- HOW PC CHANGES (R127): after an instruction that is not of the control transfer family PC is the
next address, or INT_ADDR by an entry, for which GM was on and is off. -/
def Obligations.PcAdvancesOrIsTheHandler : Prop :=
  ∀ (i : Instr) (s t : State), exec i s = .next t →
    i.op ∉ [Op.beqz, .bnez, .jr, .jsr, .trap] →
    t.pc = s.pc + 1 ∨ (t.pc = s.config.intAddr ∧ s.bit .gm = true ∧ t.bit .gm = false)

/-- TRACE MODE AT A HANDLER'S RETURN (R358, U14, N25; D17, log 23): a `jr` with GM and TRM on and nothing
higher pending is followed by a TRM entry that saves its target with INC = 0, so nothing of the traced
program runs; in the shadow of an ISCR write the `jr` goes through. -/
def Obligations.TraceModeReentersAtAnUnshieldedReturn : Prop :=
  ∀ (rs1 : Reg) (imm : Imm) (s : State) (target : Word),
    target = s.reg rs1 + imm.signExtend 32 → s.bit .gm = true → s.bit .trm = true →
    s.bit .nmi = false → (s.bit .mi = false ∨ s.bit .mask = false) →
    (s.shadow = 0 →
      EntersAfter (.jr rs1 imm) s 0 0 target s.config.intAddr false false false false) ∧
    (0 < s.shadow → GoesTo (.jr rs1 imm) s target)

/-- THE RETURN SEQUENCE (R297, R316, R349, R350; D15, D17): from a state whose next two words are
`intgm 1` and `jr R31, 0`, with no reset raised, the machine makes two steps. Nothing is entered between
them; after them it is either at the address R31 held, with GM on, or in the handler with that same
address in R31, INC = 0 and GM off: the return address is never lost. -/
def Obligations.ReturnSequenceKeepsTheReturnAddress : Prop :=
  ∀ s : State, s.config.opcodes.injective = true →
    s.imem.word? s.pc = some (encode s.config.opcodes (.intgm 1)) →
    s.imem.word? (s.pc + 1) = some (encode s.config.opcodes (.jr 31 0)) →
    s.pendingReset = none → s.takeInput.pendingReset = none →
    ∃ t u, step s = .next t ∧ t.pc = s.pc + 1 ∧ s.SameRegs t ∧ t.bit .gm = true ∧
      step t = .next u ∧
      ((u.pc = s.reg 31 ∧ u.bit .gm = true ∧ s.SameRegs u) ∨
       (u.pc = s.config.intAddr ∧ u.bit .gm = false ∧ u.bit .inc = false ∧ s.SameRegs u))

/-! ## Idioms -/

/-- THE IDIOMS OF R195 (with R221, R243, R244, R291, R296, R297): with no request serviceable
`add R0, R0, R0` only advances PC, `or rd, rs, R0` copies, `ori rd, R0, imm` loads 0..255,
`beqz R0, imm` always branches (the PC it reads is D5's, for either PC_READ_BIAS), `jr R30, 1` goes one
word past the address in R30 and `jr R31, 0` to the address in R31; nothing else changes. -/
def Obligations.IdiomsOfRegisterZero : Prop :=
  ∀ (rd rs : Reg) (imm : Imm) (s : State), s.quiet →
    GoesTo Idiom.noOperation s (s.pc + 1) ∧
    WritesOnly (Idiom.copy rd rs) s rd (s.reg rs) ∧
    WritesOnly (Idiom.smallConstant rd imm) s rd (0#24 ++ imm) ∧
    GoesTo (Idiom.branchAlways imm) s
      (s.pc + BitVec.ofNat 32 s.config.pcReadBias.val + imm.signExtend 32) ∧
    GoesTo Idiom.subroutineReturn s (s.reg 30 + 1) ∧
    GoesTo Idiom.interruptReturn s (s.reg 31)

/-- DIRECT AND REGISTER-INDIRECT ADDRESSING (R195, R210): with no request serviceable and RAM at the
address, `lw rd, R0, imm` and `sw R0, rs2, imm` reach the word at sext(imm), an address of the first
or the last 128 words, and `lw` and `sw` with displacement 0 the word at rs1; no other register, word or
ISCR bit changes. -/
def Obligations.DirectAndIndirectAddressing : Prop :=
  ∀ (rd rs1 rs2 : Reg) (imm : Imm) (s : State), s.quiet →
    ((imm.signExtend 32).toNat < 128 ∨ 2 ^ 32 - 128 ≤ (imm.signExtend 32).toNat) ∧
    ∀ (a : Word) (load store : Instr),
      ((a = imm.signExtend 32 ∧ load = Idiom.loadDirect rd imm ∧ store = Idiom.storeDirect rs2 imm) ∨
       (a = s.reg rs1 ∧ load = Idiom.loadIndirect rd rs1 ∧ store = Idiom.storeIndirect rs1 rs2)) →
      (s.config.unifiedMemory = false ∨ s.imem.word? a = none) → s.kindAt a = .ram →
      WritesOnly load s rd (s.ramWord a) ∧
      ∃ t, exec store s = .next t ∧ (∀ b, t.ramWord b = if b = a then s.reg rs2 else s.ramWord b) ∧
        s.SameRegs t ∧ t.pc = s.pc + 1 ∧ t.iscr = s.iscr ∧ t.shadow = s.shadow - 1 ∧ s.SameOutside t

/-- rd = R0 MAKES A NO-OPERATION (R195, R121): with no request serviceable, an instruction that only
computes a register value (of the arithmetic, logical, load-immediate, relational or shift family, or
`movs2i`) and does not overflow only advances PC when its rd is R0. -/
def Obligations.DestinationZeroIsANoOperation : Prop :=
  ∀ (i : Instr) (s : State), s.quiet → i.fields.rd = 0 → i.posts s = none →
    i.op ∉ [Op.lw, .sw, .beqz, .bnez, .jr, .jsr, .trap, .intm, .intgm, .trm, .movi2s] →
    GoesTo i s (s.pc + 1)

/-- BUILDING A 32-BIT CONSTANT (R195, R254): one of `ori`, `li1`, `li2`, `li3` for each byte of v that is
listed, in any order, the first with source R0 and the rest with source rd, leave v in rd and change
nothing else, if every byte not listed is zero and at least one is listed. -/
def Obligations.ConstantIsBuiltByteByByte : Prop :=
  ∀ (rd : Reg) (v : Word) (bytes : List (Fin 4)) (s : State), bytes ≠ [] →
    (∀ k, k ∉ bytes → Idiom.byteOf v k = 0) → s.quietFor bytes.length →
    ∃ t, execAll (Idiom.constant rd v bytes) s = .next t ∧ s.OnlyReg t rd v ∧
      t.pc = s.pc + BitVec.ofNat 32 bytes.length ∧ t.iscr = s.iscr ∧
      t.shadow = s.shadow - bytes.length ∧ s.SameData t ∧ s.SameOutside t
end

