-- ==== Sys2Proof/Laws/State.lean ====
section
/-!
SUPPORT. One lemma per field per update of the state, each true by definition, so that no later proof
unfolds a record update; and the register file's read-after-write law.
-/

namespace Sys2Proof.Machine

variable (s : State)

/-! ### `setReg` -/

@[simp] theorem State.setReg_pc (r : Reg) (v : Word) : (s.setReg r v).pc = s.pc := rfl
@[simp] theorem State.setReg_iscr (r : Reg) (v : Word) : (s.setReg r v).iscr = s.iscr := rfl
@[simp] theorem State.setReg_imem (r : Reg) (v : Word) : (s.setReg r v).imem = s.imem := rfl
@[simp] theorem State.setReg_dmem (r : Reg) (v : Word) : (s.setReg r v).dmem = s.dmem := rfl
@[simp] theorem State.setReg_nmiLine (r : Reg) (v : Word) : (s.setReg r v).nmiLine = s.nmiLine := rfl
@[simp] theorem State.setReg_miLine (r : Reg) (v : Word) : (s.setReg r v).miLine = s.miLine := rfl
@[simp] theorem State.setReg_devices (r : Reg) (v : Word) : (s.setReg r v).devices = s.devices := rfl
@[simp] theorem State.setReg_shadow (r : Reg) (v : Word) : (s.setReg r v).shadow = s.shadow := rfl
@[simp] theorem State.setReg_config (r : Reg) (v : Word) : (s.setReg r v).config = s.config := rfl
@[simp] theorem State.setReg_env (r : Reg) (v : Word) : (s.setReg r v).env = s.env := rfl
@[simp] theorem State.setReg_bus (r : Reg) (v : Word) : (s.setReg r v).bus = s.bus := rfl
@[simp] theorem State.setReg_draws (r : Reg) (v : Word) : (s.setReg r v).draws = s.draws := rfl
@[simp] theorem State.setReg_resets (r : Reg) (v : Word) : (s.setReg r v).resets = s.resets := rfl

/-! ### `setBit` -/

@[simp] theorem State.setBit_gpr (b : IscrBit) (on : Bool) : (s.setBit b on).gpr = s.gpr := rfl
@[simp] theorem State.setBit_pc (b : IscrBit) (on : Bool) : (s.setBit b on).pc = s.pc := rfl
@[simp] theorem State.setBit_imem (b : IscrBit) (on : Bool) : (s.setBit b on).imem = s.imem := rfl
@[simp] theorem State.setBit_dmem (b : IscrBit) (on : Bool) : (s.setBit b on).dmem = s.dmem := rfl
@[simp] theorem State.setBit_nmiLine (b : IscrBit) (on : Bool) : (s.setBit b on).nmiLine = s.nmiLine := rfl
@[simp] theorem State.setBit_miLine (b : IscrBit) (on : Bool) : (s.setBit b on).miLine = s.miLine := rfl
@[simp] theorem State.setBit_devices (b : IscrBit) (on : Bool) : (s.setBit b on).devices = s.devices := rfl
@[simp] theorem State.setBit_shadow (b : IscrBit) (on : Bool) : (s.setBit b on).shadow = s.shadow := rfl
@[simp] theorem State.setBit_config (b : IscrBit) (on : Bool) : (s.setBit b on).config = s.config := rfl
@[simp] theorem State.setBit_env (b : IscrBit) (on : Bool) : (s.setBit b on).env = s.env := rfl
@[simp] theorem State.setBit_bus (b : IscrBit) (on : Bool) : (s.setBit b on).bus = s.bus := rfl
@[simp] theorem State.setBit_draws (b : IscrBit) (on : Bool) : (s.setBit b on).draws = s.draws := rfl
@[simp] theorem State.setBit_resets (b : IscrBit) (on : Bool) : (s.setBit b on).resets = s.resets := rfl

/-! ### `tickShadow` -/

@[simp] theorem State.tickShadow_gpr (w : Bool) : (s.tickShadow w).gpr = s.gpr := rfl
@[simp] theorem State.tickShadow_pc (w : Bool) : (s.tickShadow w).pc = s.pc := rfl
@[simp] theorem State.tickShadow_iscr (w : Bool) : (s.tickShadow w).iscr = s.iscr := rfl
@[simp] theorem State.tickShadow_imem (w : Bool) : (s.tickShadow w).imem = s.imem := rfl
@[simp] theorem State.tickShadow_dmem (w : Bool) : (s.tickShadow w).dmem = s.dmem := rfl
@[simp] theorem State.tickShadow_nmiLine (w : Bool) : (s.tickShadow w).nmiLine = s.nmiLine := rfl
@[simp] theorem State.tickShadow_miLine (w : Bool) : (s.tickShadow w).miLine = s.miLine := rfl
@[simp] theorem State.tickShadow_devices (w : Bool) : (s.tickShadow w).devices = s.devices := rfl
@[simp] theorem State.tickShadow_config (w : Bool) : (s.tickShadow w).config = s.config := rfl
@[simp] theorem State.tickShadow_env (w : Bool) : (s.tickShadow w).env = s.env := rfl
@[simp] theorem State.tickShadow_bus (w : Bool) : (s.tickShadow w).bus = s.bus := rfl
@[simp] theorem State.tickShadow_draws (w : Bool) : (s.tickShadow w).draws = s.draws := rfl
@[simp] theorem State.tickShadow_resets (w : Bool) : (s.tickShadow w).resets = s.resets := rfl

/-! ### `enter` -/

@[simp] theorem State.enter_imem (c : Cause) (e : Ending) : (s.enter c e).imem = s.imem := rfl
@[simp] theorem State.enter_dmem (c : Cause) (e : Ending) : (s.enter c e).dmem = s.dmem := rfl
@[simp] theorem State.enter_nmiLine (c : Cause) (e : Ending) : (s.enter c e).nmiLine = s.nmiLine := rfl
@[simp] theorem State.enter_miLine (c : Cause) (e : Ending) : (s.enter c e).miLine = s.miLine := rfl
@[simp] theorem State.enter_devices (c : Cause) (e : Ending) : (s.enter c e).devices = s.devices := rfl
@[simp] theorem State.enter_shadow (c : Cause) (e : Ending) : (s.enter c e).shadow = s.shadow := rfl
@[simp] theorem State.enter_config (c : Cause) (e : Ending) : (s.enter c e).config = s.config := rfl
@[simp] theorem State.enter_env (c : Cause) (e : Ending) : (s.enter c e).env = s.env := rfl
@[simp] theorem State.enter_bus (c : Cause) (e : Ending) : (s.enter c e).bus = s.bus := rfl
@[simp] theorem State.enter_draws (c : Cause) (e : Ending) : (s.enter c e).draws = s.draws := rfl
@[simp] theorem State.enter_resets (c : Cause) (e : Ending) : (s.enter c e).resets = s.resets := rfl

/-! ### `accept` -/

@[simp] theorem State.accept_gpr : s.accept.gpr = s.gpr := rfl
@[simp] theorem State.accept_pc : s.accept.pc = s.pc := rfl
@[simp] theorem State.accept_imem : s.accept.imem = s.imem := rfl
@[simp] theorem State.accept_dmem : s.accept.dmem = s.dmem := rfl
@[simp] theorem State.accept_nmiLine : s.accept.nmiLine = s.nmiLine := rfl
@[simp] theorem State.accept_miLine : s.accept.miLine = s.miLine := rfl
@[simp] theorem State.accept_devices : s.accept.devices = s.devices := rfl
@[simp] theorem State.accept_shadow : s.accept.shadow = s.shadow := rfl
@[simp] theorem State.accept_config : s.accept.config = s.config := rfl
@[simp] theorem State.accept_env : s.accept.env = s.env := rfl
@[simp] theorem State.accept_bus : s.accept.bus = s.bus := rfl
@[simp] theorem State.accept_draws : s.accept.draws = s.draws := rfl
@[simp] theorem State.accept_resets : s.accept.resets = s.resets := rfl

/-! ### `resetEvent` -/

@[simp] theorem State.resetEvent_nmiLine (l : ResetLoad) : (s.resetEvent l).nmiLine = s.nmiLine := rfl
@[simp] theorem State.resetEvent_miLine (l : ResetLoad) : (s.resetEvent l).miLine = s.miLine := rfl
@[simp] theorem State.resetEvent_devices (l : ResetLoad) : (s.resetEvent l).devices = s.devices := rfl
@[simp] theorem State.resetEvent_config (l : ResetLoad) : (s.resetEvent l).config = s.config := rfl
@[simp] theorem State.resetEvent_env (l : ResetLoad) : (s.resetEvent l).env = s.env := rfl
@[simp] theorem State.resetEvent_bus (l : ResetLoad) : (s.resetEvent l).bus = s.bus := rfl
@[simp] theorem State.resetEvent_draws (l : ResetLoad) : (s.resetEvent l).draws = s.draws := rfl

/-! ### `loadImageWord` -/

@[simp] theorem State.loadImageWord_gpr (a w : Word) : (s.loadImageWord a w).gpr = s.gpr := rfl
@[simp] theorem State.loadImageWord_pc (a w : Word) : (s.loadImageWord a w).pc = s.pc := rfl
@[simp] theorem State.loadImageWord_iscr (a w : Word) : (s.loadImageWord a w).iscr = s.iscr := rfl
@[simp] theorem State.loadImageWord_dmem (a w : Word) : (s.loadImageWord a w).dmem = s.dmem := rfl
@[simp] theorem State.loadImageWord_nmiLine (a w : Word) : (s.loadImageWord a w).nmiLine = s.nmiLine := rfl
@[simp] theorem State.loadImageWord_miLine (a w : Word) : (s.loadImageWord a w).miLine = s.miLine := rfl
@[simp] theorem State.loadImageWord_devices (a w : Word) : (s.loadImageWord a w).devices = s.devices := rfl
@[simp] theorem State.loadImageWord_shadow (a w : Word) : (s.loadImageWord a w).shadow = s.shadow := rfl
@[simp] theorem State.loadImageWord_config (a w : Word) : (s.loadImageWord a w).config = s.config := rfl
@[simp] theorem State.loadImageWord_env (a w : Word) : (s.loadImageWord a w).env = s.env := rfl
@[simp] theorem State.loadImageWord_bus (a w : Word) : (s.loadImageWord a w).bus = s.bus := rfl
@[simp] theorem State.loadImageWord_draws (a w : Word) : (s.loadImageWord a w).draws = s.draws := rfl
@[simp] theorem State.loadImageWord_resets (a w : Word) : (s.loadImageWord a w).resets = s.resets := rfl

/-! ### `shielded` -/

@[simp] theorem State.shielded_gpr : s.shielded.gpr = s.gpr := rfl
@[simp] theorem State.shielded_pc : s.shielded.pc = s.pc := rfl
@[simp] theorem State.shielded_iscr : s.shielded.iscr = s.iscr := rfl
@[simp] theorem State.shielded_imem : s.shielded.imem = s.imem := rfl
@[simp] theorem State.shielded_dmem : s.shielded.dmem = s.dmem := rfl
@[simp] theorem State.shielded_nmiLine : s.shielded.nmiLine = s.nmiLine := rfl
@[simp] theorem State.shielded_miLine : s.shielded.miLine = s.miLine := rfl
@[simp] theorem State.shielded_devices : s.shielded.devices = s.devices := rfl
@[simp] theorem State.shielded_config : s.shielded.config = s.config := rfl
@[simp] theorem State.shielded_env : s.shielded.env = s.env := rfl
@[simp] theorem State.shielded_bus : s.shielded.bus = s.bus := rfl
@[simp] theorem State.shielded_draws : s.shielded.draws = s.draws := rfl
@[simp] theorem State.shielded_resets : s.shielded.resets = s.resets := rfl

/-! ### What the updates write -/

@[simp] theorem State.setBit_iscr (b : IscrBit) (on : Bool) :
    (s.setBit b on).iscr = iscrPut s.iscr b on := rfl
@[simp] theorem State.enter_pc (c : Cause) (e : Ending) : (s.enter c e).pc = s.handler c := rfl
@[simp] theorem State.enter_iscr (c : Cause) (e : Ending) :
    (s.enter c e).iscr = s.entryIscr c (!e.jumped) := rfl
@[simp] theorem State.tickShadow_shadow (w : Bool) :
    (s.tickShadow w).shadow = if w then s.config.iscrWriteShadow else s.shadow - 1 := rfl
@[simp] theorem State.shielded_shadow : s.shielded.shadow = 1 := rfl
@[simp] theorem State.resetEvent_pc (l : ResetLoad) : (s.resetEvent l).pc = s.config.resetPc := rfl
@[simp] theorem State.resetEvent_iscr (l : ResetLoad) :
    (s.resetEvent l).iscr = s.config.resetIscr := rfl
@[simp] theorem State.resetEvent_gpr (l : ResetLoad) : (s.resetEvent l).gpr = l.gpr := rfl
@[simp] theorem State.resetEvent_shadow (l : ResetLoad) : (s.resetEvent l).shadow = 0 := rfl
@[simp] theorem State.resetEvent_imem (l : ResetLoad) :
    (s.resetEvent l).imem = Memory.load [] l.image := rfl
@[simp] theorem State.resetEvent_dmem (l : ResetLoad) :
    (s.resetEvent l).dmem = Memory.load [] l.data := rfl

/-! ### The register file -/

@[simp] theorem State.reg_zero : s.reg 0#5 = 0#32 := rfl

/-- A register depends on the register file alone. -/
theorem State.reg_congr {s t : State} (h : t.gpr = s.gpr) (q : Reg) : t.reg q = s.reg q := by
  simp [State.reg, h]

theorem reg_toNat_ne_zero {r : Reg} (h : r ≠ 0#5) : r.toNat ≠ 0 :=
  fun e => h (BitVec.eq_of_toNat_eq (by simpa using e))

/-- Reading a register after writing one: the written value at the written register, R0 excepted. -/
theorem State.reg_setReg (r q : Reg) (v : Word) :
    (s.setReg r v).reg q = if q = r ∧ q ≠ 0#5 then v else s.reg q := by
  by_cases hq : q = 0#5
  · subst hq; simp
  by_cases hr : r = 0#5
  · subst hr; simp [State.reg, State.setReg, hq]
  have hq' := reg_toNat_ne_zero hq
  have hr' := reg_toNat_ne_zero hr
  by_cases h : q = r
  · subst h; simp [State.reg, State.setReg, hq]
  · have hne : r.toNat - 1 ≠ q.toNat - 1 := fun e => h (BitVec.eq_of_toNat_eq (by omega))
    simp only [State.reg, State.setReg, hq, hr, if_false]
    rw [Vector.getElem_set_ne _ _ hne]
    simp [h]

@[simp] theorem State.reg_setBit (b : IscrBit) (on : Bool) (q : Reg) : (s.setBit b on).reg q = s.reg q := rfl
@[simp] theorem State.reg_tickShadow (w : Bool) (q : Reg) : (s.tickShadow w).reg q = s.reg q := rfl
@[simp] theorem State.reg_accept (q : Reg) : s.accept.reg q = s.reg q := rfl
@[simp] theorem State.reg_loadImageWord (a w : Word) (q : Reg) : (s.loadImageWord a w).reg q = s.reg q := rfl
@[simp] theorem State.reg_shielded (q : Reg) : s.shielded.reg q = s.reg q := rfl

/-- The register file after an entry: R31 holds the return address (R340). -/
theorem State.reg_enter (c : Cause) (e : Ending) (q : Reg) :
    (s.enter c e).reg q = if q = 31#5 then e.saved else s.reg q := by
  have h : (s.enter c e).reg q = (s.setReg 31#5 e.saved).reg q := rfl
  rw [h, State.reg_setReg]
  by_cases hq : q = 31#5
  · subst hq; simp
  · simp [hq]

end Sys2Proof.Machine
end

