-- ==== Sys2Proof/Laws/Idioms.lean ====
section
/-!
SUPPORT. What each idiom of 30_encoding.md R195 does, as one equation over the shared operations, in every
state: R0 reads 0, so the operand it stands for drops out.
-/

namespace Sys2Proof.Machine

-- Elaborated in one thread, as Tests/Slice0.lean is: many at once exhaust the sandbox's memory.
set_option Elab.async false

open Idiom

variable (s : State)

@[simp] theorem sext32_zero : sext32 0#8 = 0#32 := by decide

/-- With base R0 the address is the displacement alone (R210). -/
@[simp] theorem State.regPlus_zeroBase (imm : Imm) : s.regPlus 0#5 imm = sext32 imm := by
  simp [State.regPlus]

/-- With displacement 0 the address is the register (R210). -/
@[simp] theorem State.regPlus_noDisplacement (r : Reg) : s.regPlus r 0#8 = s.reg r := by
  simp [State.regPlus]

/-- `add R0, R0, R0` only advances PC (R195). -/
theorem exec_noOperation : exec noOperation s = .next s.endPlain := by
  have h : addOverflow 0#32 0#32 = false := by decide
  have h0 : s.setReg 0#5 0#32 = s := rfl
  simp [exec, noOperation, execAdd, State.arith, State.endArith, State.endPlain, h, h0]

/-- `or rd, rs, R0` copies (R195). -/
theorem exec_copy (rd rs : Reg) : exec (copy rd rs) s = s.writeReg rd (s.reg rs) := by
  simp [exec, copy, execOr]

/-- `ori rd, R0, imm` loads 0..255 (R195). -/
theorem exec_smallConstant (rd : Reg) (imm : Imm) :
    exec (smallConstant rd imm) s = s.writeReg rd (zext32 imm) := by
  simp [exec, smallConstant, execOri]

/-- `beqz R0, imm` is always taken (R195). -/
theorem exec_branchAlways (imm : Imm) :
    exec (branchAlways imm) s = .next (s.endJump (s.branchTarget imm) (s.savedBranchTarget imm)) := by
  simp [exec, branchAlways, execBeqz]

/-- `lw rd, R0, imm` reads the address the immediate gives (R195). -/
theorem exec_loadDirect (rd : Reg) (imm : Imm) :
    exec (loadDirect rd imm) s =
      .next ((s.memRead (sext32 imm)).2.setReg rd (s.memRead (sext32 imm)).1).endPlain := by
  simp [exec, loadDirect, execLw]

/-- `lw rd, rs1, 0` reads the address rs1 holds (R195). -/
theorem exec_loadIndirect (rd rs1 : Reg) :
    exec (loadIndirect rd rs1) s =
      .next ((s.memRead (s.reg rs1)).2.setReg rd (s.memRead (s.reg rs1)).1).endPlain := by
  simp [exec, loadIndirect, execLw]

/-- `sw R0, rs2, imm` writes the address the immediate gives (R195). -/
theorem exec_storeDirect (rs2 : Reg) (imm : Imm) {t : State}
    (h : s.memWrite (sext32 imm) (s.reg rs2) = some t) :
    exec (storeDirect rs2 imm) s = .next t.endPlain := by
  simp [exec, storeDirect, execSw, h]

/-- `sw rs1, rs2, 0` writes the address rs1 holds (R195). -/
theorem exec_storeIndirect (rs1 rs2 : Reg) {t : State}
    (h : s.memWrite (s.reg rs1) (s.reg rs2) = some t) :
    exec (storeIndirect rs1 rs2) s = .next t.endPlain := by
  simp [exec, storeIndirect, execSw, h]

/-- `jr R30, 1` goes on after the `jsr` whose address R30 holds (R296). -/
theorem exec_subroutineReturn :
    exec subroutineReturn s = .next (s.endJump (s.reg 30 + 1) (s.reg 30 + 1)) := by
  have h : sext32 1#8 = 1#32 := by decide
  simp [exec, subroutineReturn, execJr, State.regPlus, h]

/-- `jr R31, 0` goes on at the address R31 holds (R297). -/
theorem exec_interruptReturn :
    exec interruptReturn s = .next (s.endJump (s.reg 31) (s.reg 31)) := by
  simp [exec, interruptReturn, execJr]

/-- The four instructions that fill a byte are one: they or the immediate into it (R195, R254). -/
theorem exec_loadByte (k : Fin 4) (rd rs1 : Reg) (imm : Imm) :
    exec (loadByte k rd rs1 imm) s = s.writeReg rd (s.reg rs1 ||| immInByte k imm) := by
  match k with
  | 0 => simp [loadByte, exec, execOri, immInByte]
  | 1 => simp [loadByte, exec, execLi1]
  | 2 => simp [loadByte, exec, execLi2]
  | 3 => simp [loadByte, exec, execLi3]

end Sys2Proof.Machine
end

