-- ==== Sys2Proof/Laws/Iscr.lean ====
section
/-!
SUPPORT. The bits of ISCR: reading after writing a bit, and what each operation leaves in each bit.
-/

namespace Sys2Proof.Machine

theorem IscrBit.pos_lt (b : IscrBit) : b.pos < 10 := by cases b <;> decide

theorem IscrBit.pos_inj {b c : IscrBit} : b.pos = c.pos ↔ b = c := by
  cases b <;> cases c <;> simp [IscrBit.pos]

/-- Reading a bit after writing one. -/
@[simp] theorem iscrGet_iscrPut (v : Iscr) (b c : IscrBit) (on : Bool) :
    iscrGet (iscrPut v b on) c = if c = b then on else iscrGet v c := by
  have hc := c.pos_lt
  have hb := b.pos_lt
  unfold iscrGet iscrPut
  by_cases h : c = b
  · subst h
    cases on <;> simp [hb]
  · have hp : c.pos ≠ b.pos := fun e => h (IscrBit.pos_inj.mp e)
    rcases Nat.lt_or_gt_of_ne hp with hlt | hgt
    · cases on <;> simp [hc, h, hlt]
    · have h1 : c.pos - b.pos ≠ 0 := by omega
      cases on <;> simp [hc, h, h1]

/-- Two ISCR values with the same ten bits are equal. -/
theorem iscr_ext {v w : Iscr} (h : ∀ b, iscrGet v b = iscrGet w b) : v = w := by
  apply BitVec.eq_of_getLsbD_eq
  intro i hi
  have key : ∀ i : Nat, i < 10 → ∃ b : IscrBit, b.pos = i := by
    intro i hi
    match i, hi with
    | 0, _ => exact ⟨.inc, rfl⟩
    | 1, _ => exact ⟨.trm, rfl⟩
    | 2, _ => exact ⟨.mask, rfl⟩
    | 3, _ => exact ⟨.mi, rfl⟩
    | 4, _ => exact ⟨.nmi, rfl⟩
    | 5, _ => exact ⟨.are, rfl⟩
    | 6, _ => exact ⟨.uoe, rfl⟩
    | 7, _ => exact ⟨.trap, rfl⟩
    | 8, _ => exact ⟨.ini, rfl⟩
    | 9, _ => exact ⟨.gm, rfl⟩
  obtain ⟨b, rfl⟩ := key i hi
  exact h b

/-- A bit depends on ISCR alone. -/
theorem State.bit_congr {s t : State} (h : t.iscr = s.iscr) (b : IscrBit) : t.bit b = s.bit b := by
  simp [State.bit, h]

variable (s : State)

@[simp] theorem State.bit_setReg (r : Reg) (v : Word) (b : IscrBit) :
    (s.setReg r v).bit b = s.bit b := rfl
@[simp] theorem State.bit_tickShadow (w : Bool) (b : IscrBit) : (s.tickShadow w).bit b = s.bit b := rfl
@[simp] theorem State.bit_shielded (b : IscrBit) : s.shielded.bit b = s.bit b := rfl

/-- A bit after one bit is written. -/
theorem State.bit_setBit (b c : IscrBit) (on : Bool) :
    (s.setBit b on).bit c = if c = b then on else s.bit c := iscrGet_iscrPut _ _ _ _

/-- Acceptance sets NMI and MI where GM and the line are on, and touches no other bit (R331). -/
theorem State.bit_accept (b : IscrBit) :
    s.accept.bit b =
      (s.bit b || (s.bit .gm && ((decide (b = .nmi) && s.nmiLine) || (decide (b = .mi) && s.miLine)))) := by
  cases b <;> simp [State.bit, State.accept]

/-- What entry loads into one of the three cause indicators. -/
theorem State.causeBit_eq (b : IscrBit) (isCause : Bool) :
    s.causeBit b isCause =
      (isCause || (decide (s.config.causeBits = .setOnly) && s.bit b)) := by
  unfold State.causeBit
  cases s.config.causeBits <;> simp

/-- ISCR after an entry, bit by bit (R340, R343, R344). -/
theorem State.enter_iscrEntered (c : Cause) (e : Ending) :
    s.IscrEntered (s.enter c e) (!e.jumped) c.isTrap (decide (c = .uoe)) (decide (c = .are)) := by
  constructor <;> simp [State.bit, State.entryIscr, State.causeBit_eq]

end Sys2Proof.Machine
end

