-- ==== Sys2Proof/Laws/Memory.lean ====
section
/-!
SUPPORT. Memory: reading a byte after writing one, and that every operation keeps the canonical form.
-/

namespace Sys2Proof.Machine

/-- Reading a byte after writing one. -/
theorem Memory.byte?_putByte (m : Memory) (a b : Nat) (v : Byte) :
    (m.putByte a v).byte? b = if b = a then some v else m.byte? b := by
  induction m with
  | nil => simp only [Memory.putByte, Memory.byte?]; by_cases h : a = b <;> simp [h, eq_comm]
  | cons c m ih =>
    obtain ⟨k, w⟩ := c
    simp only [Memory.putByte]
    split
    · simp only [Memory.byte?]; by_cases h : a = b <;> simp [h, eq_comm]
    · split
      · subst_vars; simp only [Memory.byte?]
        by_cases h : k = b <;> simp [h, eq_comm]
        intro h'; exact absurd h'.symm h
      · rename_i h1 h2
        simp only [Memory.byte?]
        by_cases h : k = b
        · subst h; simp [Ne.symm h2]
        · simp only [h, if_false, ih]

theorem Memory.mem_putByte {m : Memory} {a : Nat} {v : Byte} {c : Host.Cell}
    (h : c ∈ m.putByte a v) : c = (a, v) ∨ c ∈ m := by
  induction m with
  | nil => simpa [Memory.putByte] using h
  | cons x m ih =>
    obtain ⟨k, w⟩ := x
    simp only [Memory.putByte] at h
    split at h
    · simpa using h
    · split at h
      · rcases List.mem_cons.mp h with h | h
        · exact .inl h
        · exact .inr (List.mem_cons_of_mem _ h)
      · rcases List.mem_cons.mp h with h | h
        · exact .inr (by simp [h])
        · rcases ih h with h | h
          · exact .inl h
          · exact .inr (List.mem_cons_of_mem _ h)

/-- The canonical form as two facts. -/
theorem Memory.wf_iff (m : Memory) :
    m.wf = true ↔ m.Pairwise (fun x y => x.1 < y.1) ∧ ∀ c ∈ m, c.1 < 4 * 2 ^ 32 := by
  simp [Memory.wf]

@[simp] theorem Memory.wf_nil : Memory.wf [] = true := rfl

/-- Writing a byte keeps the canonical form. -/
theorem Memory.wf_putByte {m : Memory} {a : Nat} (v : Byte) (h : m.wf = true) (ha : a < 4 * 2 ^ 32) :
    (m.putByte a v).wf = true := by
  rw [Memory.wf_iff] at h ⊢
  refine ⟨?_, ?_⟩
  · obtain ⟨hp, -⟩ := h
    induction m with
    | nil => simp [Memory.putByte]
    | cons x m ih =>
      obtain ⟨k, w⟩ := x
      rw [List.pairwise_cons] at hp
      simp only [Memory.putByte]
      split
      · rename_i hlt
        refine List.pairwise_cons.mpr ⟨?_, List.pairwise_cons.mpr hp⟩
        intro y hy
        rcases List.mem_cons.mp hy with rfl | hy
        · exact hlt
        · exact lt_trans hlt (hp.1 y hy)
      · split
        · subst_vars; exact List.pairwise_cons.mpr ⟨fun y hy => hp.1 y hy, hp.2⟩
        · refine List.pairwise_cons.mpr ⟨?_, ih hp.2⟩
          intro y hy
          rcases Memory.mem_putByte hy with rfl | hy
          · simp only at *; omega
          · exact hp.1 y hy
  · intro c hc
    rcases Memory.mem_putByte hc with rfl | hc
    · exact ha
    · exact h.2 c hc

theorem cellKey_lt (a : Word) {k : Nat} (hk : k < 4) : cellKey a k < 4 * 2 ^ 32 := by
  have := a.isLt; unfold cellKey; omega

/-- Writing a word keeps the canonical form. -/
theorem Memory.wf_putWord {m : Memory} (a v : Word) (h : m.wf = true) : (m.putWord a v).wf = true :=
  wf_putByte _ (wf_putByte _ (wf_putByte _ (wf_putByte _ h (cellKey_lt a (by decide)))
    (cellKey_lt a (by decide))) (cellKey_lt a (by decide))) (cellKey_lt a (by decide))

/-- Loading a list of words keeps the canonical form. -/
theorem Memory.wf_load {m : Memory} (ws : List (Word × Word)) (h : m.wf = true) :
    (m.load ws).wf = true := by
  unfold Memory.load
  induction ws generalizing m with
  | nil => exact h
  | cons p ws ih => exact ih (wf_putWord _ _ h)

/-- Reading a byte after writing a word: the word's byte at its four keys, else as before. -/
theorem Memory.byte?_putWord (m : Memory) (a v : Word) (key : Nat) :
    (m.putWord a v).byte? key =
      if key = cellKey a 3 then some (byteOfWord v 3)
      else if key = cellKey a 2 then some (byteOfWord v 2)
      else if key = cellKey a 1 then some (byteOfWord v 1)
      else if key = cellKey a 0 then some (byteOfWord v 0)
      else m.byte? key := by
  simp only [Memory.putWord, Memory.byte?_putByte]

/-- A byte of no listed word is as before the words were loaded. -/
theorem Memory.byte?_load_of_untouched (m : Memory) (ws : List (Word × Word)) (key : Nat)
    (h : ∀ p ∈ ws, ∀ k, k < 4 → key ≠ cellKey p.1 k) : (m.load ws).byte? key = m.byte? key := by
  unfold Memory.load
  induction ws generalizing m with
  | nil => rfl
  | cons p ws ih =>
    have hp := h p (List.mem_cons_self ..)
    refine (ih (m.putWord p.1 p.2) fun q hq => h q (List.mem_cons_of_mem _ hq)).trans ?_
    simp [Memory.byte?_putWord, hp 3, hp 2, hp 1, hp 0]

/-- The keys of two words are the same only for the same word and the same byte. -/
theorem cellKey_inj {a b : Word} {j k : Nat} (hj : j < 4) (hk : k < 4)
    (h : cellKey a j = cellKey b k) : a = b ∧ j = k := by
  unfold cellKey at h
  exact ⟨BitVec.eq_of_toNat_eq (by omega), by omega⟩

/-- A word is the word of its four bytes. -/
theorem wordOfBytes_byteOfWord (w : Word) :
    wordOfBytes (byteOfWord w 0) (byteOfWord w 1) (byteOfWord w 2) (byteOfWord w 3) = w := by
  apply BitVec.eq_of_getLsbD_eq
  intro i hi
  simp only [wordOfBytes, byteOfWord, BitVec.getLsbD_append, BitVec.getLsbD_extractLsb']
  have take : ∀ k : Nat, 8 * k ≤ i → i < 8 * k + 8 →
      (decide (i - 8 * k < 8) && w.getLsbD (8 * k + (i - 8 * k))) = w.getLsbD i := by
    intro k h1 h2
    have h3 : i - 8 * k < 8 := by omega
    have h4 : 8 * k + (i - 8 * k) = i := by omega
    simp [h3, h4]
  split
  · simpa using take 0 (by omega) (by omega)
  split
  · simpa using take 1 (by omega) (by omega)
  split
  · simpa [Nat.sub_sub] using take 2 (by omega) (by omega)
  · simpa [Nat.sub_sub] using take 3 (by omega) (by omega)

end Sys2Proof.Machine
end

