-- ==== Sys2Proof/Laws/Ops.lean ====
section
/-!
SUPPORT. One lemma per shared operation that says once all it can do: the interrupt decision, the
conclusion of an instruction, data access, and the step boundary.
-/

namespace Sys2Proof.Machine

variable (s : State)

/-! ## The decision -/

/-- A shielded step, or one with GM off, starts no servicing whatever the instruction posted. -/
theorem State.servicedCause_dropped {s : State} (h : s.dropsInternal) (e : Ending) :
    s.servicedCause e = none := by
  unfold State.servicedCause
  rcases h with h | h
  · simp [h]
  · simp [h]

/-- The step of an ISCR write starts no servicing (R316). -/
theorem State.servicedCause_writesIscr {e : Ending} (h : e.writesIscr = true) :
    s.servicedCause e = none := by simp [State.servicedCause, h]

/-- Otherwise an internal request wins (R336). -/
theorem State.servicedCause_internal {s : State} (h : s.takesInternal) {e : Ending} {r : Request}
    (hw : e.writesIscr = false) (hr : e.request = some r) : s.servicedCause e = some r.cause := by
  simp [State.servicedCause, h.1, h.2, hw, hr]

/-- Otherwise an external or trace request is taken, if one can be serviced. -/
theorem State.servicedCause_pending {s : State} (h : s.takesInternal) {e : Ending}
    (hw : e.writesIscr = false) (hr : e.request = none) : s.servicedCause e = s.pendingCause := by
  simp [State.servicedCause, h.1, h.2, hw, hr]

/-- With nothing serviceable an instruction that posts no request is not followed by an entry. -/
theorem State.servicedCause_quiet {s : State} (h : s.quiet) {e : Ending} (hr : e.request = none) :
    s.servicedCause e = none := by
  rcases h with h | h | ⟨h1, h2, h3⟩
  · exact State.servicedCause_dropped (.inl h) e
  · exact State.servicedCause_dropped (.inr h) e
  · unfold State.servicedCause State.pendingCause
    rcases h2 with h2 | h2 <;> simp [hr, h1, h2, h3]

/-- All an entry tells about the decision that led to it. -/
theorem State.servicedCause_some {s : State} {e : Ending} {c : Cause}
    (h : s.servicedCause e = some c) :
    e.writesIscr = false ∧ s.takesInternal ∧
      ((∃ r, e.request = some r ∧ c = r.cause) ∨ (e.request = none ∧ s.pendingCause = some c)) := by
  unfold State.servicedCause at h
  split at h
  · cases h
  · rename_i hw
    simp only [Bool.or_eq_true, decide_eq_true_eq, not_or, Nat.not_lt, Nat.le_zero,
      Bool.not_eq_true] at hw
    split at h
    · rename_i hg
      refine ⟨hw.1, ⟨hw.2, hg⟩, ?_⟩
      cases hr : e.request with
      | none => rw [hr] at h; exact .inr ⟨rfl, h⟩
      | some r => rw [hr] at h; exact .inl ⟨r, rfl, by simpa using h.symm⟩
    · cases h

/-- An external or trace cause is none of the three internal ones. -/
theorem State.pendingCause_external {s : State} {c : Cause} (h : s.pendingCause = some c) :
    c = .nmi ∨ c = .mi ∨ c = .trm := by
  unfold State.pendingCause at h
  split at h
  · exact .inl (by simpa using h.symm)
  split at h
  · exact .inr (.inl (by simpa using h.symm))
  split at h
  · exact .inr (.inr (by simpa using h.symm))
  · cases h

/-! ## The conclusion of an instruction -/

/-- Without an entry the machine goes on at the next address. -/
theorem State.conclude_of_none {s : State} {e : Ending} (h : s.servicedCause e = none) :
    s.conclude e = { s.tickShadow e.writesIscr with pc := e.next } := by
  simp [State.conclude, h]

/-- With one it is in the handler. -/
theorem State.conclude_of_some {s : State} {e : Ending} {c : Cause}
    (h : s.servicedCause e = some c) :
    s.conclude e = (s.tickShadow e.writesIscr).enter c e := by
  simp [State.conclude, h]

@[simp] theorem State.conclude_imem (e : Ending) : (s.conclude e).imem = s.imem := by
  unfold State.conclude; split <;> rfl
@[simp] theorem State.conclude_dmem (e : Ending) : (s.conclude e).dmem = s.dmem := by
  unfold State.conclude; split <;> rfl
@[simp] theorem State.conclude_nmiLine (e : Ending) : (s.conclude e).nmiLine = s.nmiLine := by
  unfold State.conclude; split <;> rfl
@[simp] theorem State.conclude_miLine (e : Ending) : (s.conclude e).miLine = s.miLine := by
  unfold State.conclude; split <;> rfl
@[simp] theorem State.conclude_devices (e : Ending) : (s.conclude e).devices = s.devices := by
  unfold State.conclude; split <;> rfl
@[simp] theorem State.conclude_config (e : Ending) : (s.conclude e).config = s.config := by
  unfold State.conclude; split <;> rfl
@[simp] theorem State.conclude_env (e : Ending) : (s.conclude e).env = s.env := by
  unfold State.conclude; split <;> rfl
@[simp] theorem State.conclude_bus (e : Ending) : (s.conclude e).bus = s.bus := by
  unfold State.conclude; split <;> rfl
@[simp] theorem State.conclude_draws (e : Ending) : (s.conclude e).draws = s.draws := by
  unfold State.conclude; split <;> rfl
@[simp] theorem State.conclude_resets (e : Ending) : (s.conclude e).resets = s.resets := by
  unfold State.conclude; split <;> rfl

/-- The shield after an instruction (R358). -/
@[simp] theorem State.conclude_shadow (e : Ending) :
    (s.conclude e).shadow = if e.writesIscr then s.config.iscrWriteShadow else s.shadow - 1 := by
  unfold State.conclude; split <;> rfl

/-- No register but R31 is changed by the conclusion of an instruction. -/
theorem State.reg_conclude (e : Ending) {q : Reg} (hq : q ≠ 31#5) :
    (s.conclude e).reg q = s.reg q := by
  unfold State.conclude
  split
  · rfl
  · rw [State.reg_enter]; simp [hq]

/-- The conclusion of an instruction leaves everything outside registers, PC, ISCR and the shield. -/
theorem State.conclude_sameOutside (e : Ending) : s.SameOutside (s.conclude e) := by
  constructor <;> simp

theorem State.conclude_sameData (e : Ending) : s.SameData (s.conclude e) := by
  intro key; simp

/-! ## Data access -/

@[simp] theorem State.memRead_gpr (a : Word) : (s.memRead a).2.gpr = s.gpr := by
  unfold State.memRead State.draw; repeat' split
  all_goals rfl
@[simp] theorem State.memRead_pc (a : Word) : (s.memRead a).2.pc = s.pc := by
  unfold State.memRead State.draw; repeat' split
  all_goals rfl
@[simp] theorem State.memRead_iscr (a : Word) : (s.memRead a).2.iscr = s.iscr := by
  unfold State.memRead State.draw; repeat' split
  all_goals rfl
@[simp] theorem State.memRead_imem (a : Word) : (s.memRead a).2.imem = s.imem := by
  unfold State.memRead State.draw; repeat' split
  all_goals rfl
@[simp] theorem State.memRead_dmem (a : Word) : (s.memRead a).2.dmem = s.dmem := by
  unfold State.memRead State.draw; repeat' split
  all_goals rfl
@[simp] theorem State.memRead_nmiLine (a : Word) : (s.memRead a).2.nmiLine = s.nmiLine := by
  unfold State.memRead State.draw; repeat' split
  all_goals rfl
@[simp] theorem State.memRead_miLine (a : Word) : (s.memRead a).2.miLine = s.miLine := by
  unfold State.memRead State.draw; repeat' split
  all_goals rfl
@[simp] theorem State.memRead_devices (a : Word) : (s.memRead a).2.devices = s.devices := by
  unfold State.memRead State.draw; repeat' split
  all_goals rfl
@[simp] theorem State.memRead_shadow (a : Word) : (s.memRead a).2.shadow = s.shadow := by
  unfold State.memRead State.draw; repeat' split
  all_goals rfl
@[simp] theorem State.memRead_config (a : Word) : (s.memRead a).2.config = s.config := by
  unfold State.memRead State.draw; repeat' split
  all_goals rfl
@[simp] theorem State.memRead_env (a : Word) : (s.memRead a).2.env = s.env := by
  unfold State.memRead State.draw; repeat' split
  all_goals rfl
@[simp] theorem State.memRead_resets (a : Word) : (s.memRead a).2.resets = s.resets := by
  unfold State.memRead State.draw; repeat' split
  all_goals rfl

/-- A read of RAM changes nothing (R156). -/
theorem State.memRead_ram {s : State} {a : Word} (ht : s.textAt a = none) (hk : s.kindAt a = .ram) :
    s.memRead a = (s.ramWord a, s) := by simp [State.memRead, ht, hk]

/-- All a write can do: store the word in RAM, tell the environment, or nothing (R153, R158, U8); it
has no answer exactly at program text (R164). -/
theorem State.memWrite_cases (a v : Word) :
    (s.memWrite a v = none ∧ (s.textAt a).isSome = true) ∨
    (s.textAt a = none ∧
      ((s.kindAt a = .ram ∧ s.memWrite a v = some { s with dmem := s.dmem.putWord a v }) ∨
       (s.kindAt a = .device ∧ s.memWrite a v = some { s with bus := s.bus ++ [.write a v] }) ∨
       (s.kindAt a = .absent ∧ s.memWrite a v = some s))) := by
  unfold State.memWrite
  cases ht : s.textAt a with
  | some w => left; simp
  | none => right; cases hk : s.kindAt a <;> simp

/-! ## The step boundary -/

@[simp] theorem State.takeInput_gpr : s.takeInput.gpr = s.gpr := by
  unfold State.takeInput; split <;> rfl
@[simp] theorem State.takeInput_pc : s.takeInput.pc = s.pc := by
  unfold State.takeInput; split <;> rfl
@[simp] theorem State.takeInput_iscr : s.takeInput.iscr = s.iscr := by
  unfold State.takeInput; split <;> rfl
@[simp] theorem State.takeInput_imem : s.takeInput.imem = s.imem := by
  unfold State.takeInput; split <;> rfl
@[simp] theorem State.takeInput_dmem : s.takeInput.dmem = s.dmem := by
  unfold State.takeInput; split <;> rfl
@[simp] theorem State.takeInput_shadow : s.takeInput.shadow = s.shadow := by
  unfold State.takeInput; split <;> rfl
@[simp] theorem State.takeInput_config : s.takeInput.config = s.config := by
  unfold State.takeInput; split <;> rfl
@[simp] theorem State.takeInput_bus : s.takeInput.bus = s.bus := by
  unfold State.takeInput; split <;> rfl
@[simp] theorem State.takeInput_draws : s.takeInput.draws = s.draws := by
  unfold State.takeInput; split <;> rfl
@[simp] theorem State.takeInput_resets : s.takeInput.resets = s.resets := by
  unfold State.takeInput; split <;> rfl
@[simp] theorem State.atBoundary_gpr : s.atBoundary.gpr = s.gpr := by
  simp [State.atBoundary]
@[simp] theorem State.atBoundary_pc : s.atBoundary.pc = s.pc := by
  simp [State.atBoundary]
@[simp] theorem State.atBoundary_imem : s.atBoundary.imem = s.imem := by
  simp [State.atBoundary]
@[simp] theorem State.atBoundary_dmem : s.atBoundary.dmem = s.dmem := by
  simp [State.atBoundary]
@[simp] theorem State.atBoundary_shadow : s.atBoundary.shadow = s.shadow := by
  simp [State.atBoundary]
@[simp] theorem State.atBoundary_config : s.atBoundary.config = s.config := by
  simp [State.atBoundary]
@[simp] theorem State.atBoundary_bus : s.atBoundary.bus = s.bus := by
  simp [State.atBoundary]
@[simp] theorem State.atBoundary_draws : s.atBoundary.draws = s.draws := by
  simp [State.atBoundary]
@[simp] theorem State.atBoundary_resets : s.atBoundary.resets = s.resets := by
  simp [State.atBoundary]

/-- A step without a reset event is the run of one instruction at the boundary state. -/
theorem step_of_no_reset {s : State} (h : s.pendingReset = none) : step s = s.atBoundary.run := by
  simp [step, h]

/-- A run that answers a next state either executed a decoded instruction or met an illegal word. -/
theorem State.run_cases {s t : State} (h : s.run = .next t) :
    ∃ w, s.fetch = some w ∧
      ((∃ i, s.decode w = .instr i ∧ exec i s = .next t) ∨
       (s.decode w = .illegal ∧ t = s.illegalWord)) := by
  unfold State.run at h
  split at h
  · cases h
  · rename_i w hw
    refine ⟨w, hw, ?_⟩
    split at h
    · rename_i i hi; exact .inl ⟨i, hi, h⟩
    · rename_i hi; exact .inr ⟨hi, by cases h; rfl⟩
    · cases h

end Sys2Proof.Machine
end

