-- ==== Sys2Proof/Laws/PerInstr.lean ====
section
/-!
SUPPORT. A family of facts per instruction, about the instruction as syntax: its operand fields leave
the fields its class does not use at zero (30_encoding.md R184), and its operation rebuilds it from
its fields.
-/

namespace Sys2Proof.Laws.UnusedFieldsZero

/-- The fields the class does not use are zero, and operation and fields determine the instruction. -/
def Statement (i : Instr) : Prop :=
  i.op.operandClass.unusedZero i.fields = true ∧ i.op.instr i.fields = i

theorem lw (rd : Reg) (rs1 : Reg) (imm : Imm) : Statement (.lw rd rs1 imm) := ⟨rfl, rfl⟩
theorem sw (rs1 : Reg) (rs2 : Reg) (imm : Imm) : Statement (.sw rs1 rs2 imm) := ⟨rfl, rfl⟩
theorem add (rd : Reg) (rs1 : Reg) (rs2 : Reg) : Statement (.add rd rs1 rs2) := ⟨rfl, rfl⟩
theorem addi (rd : Reg) (rs1 : Reg) (imm : Imm) : Statement (.addi rd rs1 imm) := ⟨rfl, rfl⟩
theorem addu (rd : Reg) (rs1 : Reg) (rs2 : Reg) : Statement (.addu rd rs1 rs2) := ⟨rfl, rfl⟩
theorem addui (rd : Reg) (rs1 : Reg) (imm : Imm) : Statement (.addui rd rs1 imm) := ⟨rfl, rfl⟩
theorem sub (rd : Reg) (rs1 : Reg) (rs2 : Reg) : Statement (.sub rd rs1 rs2) := ⟨rfl, rfl⟩
theorem subi (rd : Reg) (rs1 : Reg) (imm : Imm) : Statement (.subi rd rs1 imm) := ⟨rfl, rfl⟩
theorem subu (rd : Reg) (rs1 : Reg) (rs2 : Reg) : Statement (.subu rd rs1 rs2) := ⟨rfl, rfl⟩
theorem subui (rd : Reg) (rs1 : Reg) (imm : Imm) : Statement (.subui rd rs1 imm) := ⟨rfl, rfl⟩
theorem and (rd : Reg) (rs1 : Reg) (rs2 : Reg) : Statement (.and rd rs1 rs2) := ⟨rfl, rfl⟩
theorem andi (rd : Reg) (rs1 : Reg) (imm : Imm) : Statement (.andi rd rs1 imm) := ⟨rfl, rfl⟩
theorem or (rd : Reg) (rs1 : Reg) (rs2 : Reg) : Statement (.or rd rs1 rs2) := ⟨rfl, rfl⟩
theorem ori (rd : Reg) (rs1 : Reg) (imm : Imm) : Statement (.ori rd rs1 imm) := ⟨rfl, rfl⟩
theorem xor (rd : Reg) (rs1 : Reg) (rs2 : Reg) : Statement (.xor rd rs1 rs2) := ⟨rfl, rfl⟩
theorem xori (rd : Reg) (rs1 : Reg) (imm : Imm) : Statement (.xori rd rs1 imm) := ⟨rfl, rfl⟩
theorem li1 (rd : Reg) (rs1 : Reg) (imm : Imm) : Statement (.li1 rd rs1 imm) := ⟨rfl, rfl⟩
theorem li2 (rd : Reg) (rs1 : Reg) (imm : Imm) : Statement (.li2 rd rs1 imm) := ⟨rfl, rfl⟩
theorem li3 (rd : Reg) (rs1 : Reg) (imm : Imm) : Statement (.li3 rd rs1 imm) := ⟨rfl, rfl⟩
theorem slt (rd : Reg) (rs1 : Reg) (rs2 : Reg) : Statement (.slt rd rs1 rs2) := ⟨rfl, rfl⟩
theorem slti (rd : Reg) (rs1 : Reg) (imm : Imm) : Statement (.slti rd rs1 imm) := ⟨rfl, rfl⟩
theorem sle (rd : Reg) (rs1 : Reg) (rs2 : Reg) : Statement (.sle rd rs1 rs2) := ⟨rfl, rfl⟩
theorem slei (rd : Reg) (rs1 : Reg) (imm : Imm) : Statement (.slei rd rs1 imm) := ⟨rfl, rfl⟩
theorem seq (rd : Reg) (rs1 : Reg) (rs2 : Reg) : Statement (.seq rd rs1 rs2) := ⟨rfl, rfl⟩
theorem seqi (rd : Reg) (rs1 : Reg) (imm : Imm) : Statement (.seqi rd rs1 imm) := ⟨rfl, rfl⟩
theorem sne (rd : Reg) (rs1 : Reg) (rs2 : Reg) : Statement (.sne rd rs1 rs2) := ⟨rfl, rfl⟩
theorem snei (rd : Reg) (rs1 : Reg) (imm : Imm) : Statement (.snei rd rs1 imm) := ⟨rfl, rfl⟩
theorem sgt (rd : Reg) (rs1 : Reg) (rs2 : Reg) : Statement (.sgt rd rs1 rs2) := ⟨rfl, rfl⟩
theorem sgti (rd : Reg) (rs1 : Reg) (imm : Imm) : Statement (.sgti rd rs1 imm) := ⟨rfl, rfl⟩
theorem sge (rd : Reg) (rs1 : Reg) (rs2 : Reg) : Statement (.sge rd rs1 rs2) := ⟨rfl, rfl⟩
theorem sgei (rd : Reg) (rs1 : Reg) (imm : Imm) : Statement (.sgei rd rs1 imm) := ⟨rfl, rfl⟩
theorem shl (rd : Reg) (rs1 : Reg) : Statement (.shl rd rs1) := ⟨rfl, rfl⟩
theorem shrl (rd : Reg) (rs1 : Reg) : Statement (.shrl rd rs1) := ⟨rfl, rfl⟩
theorem shra (rd : Reg) (rs1 : Reg) : Statement (.shra rd rs1) := ⟨rfl, rfl⟩
theorem rotl (rd : Reg) (rs1 : Reg) : Statement (.rotl rd rs1) := ⟨rfl, rfl⟩
theorem rotr (rd : Reg) (rs1 : Reg) : Statement (.rotr rd rs1) := ⟨rfl, rfl⟩
theorem beqz (rs1 : Reg) (imm : Imm) : Statement (.beqz rs1 imm) := ⟨rfl, rfl⟩
theorem bnez (rs1 : Reg) (imm : Imm) : Statement (.bnez rs1 imm) := ⟨rfl, rfl⟩
theorem jr (rs1 : Reg) (imm : Imm) : Statement (.jr rs1 imm) := ⟨rfl, rfl⟩
theorem jsr (rd : Reg) (rs1 : Reg) (imm : Imm) : Statement (.jsr rd rs1 imm) := ⟨rfl, rfl⟩
theorem trap (rs1 : Reg) (imm : Imm) : Statement (.trap rs1 imm) := ⟨rfl, rfl⟩
theorem intm (imm : Imm) : Statement (.intm imm) := ⟨rfl, rfl⟩
theorem intgm (imm : Imm) : Statement (.intgm imm) := ⟨rfl, rfl⟩
theorem trm (imm : Imm) : Statement (.trm imm) := ⟨rfl, rfl⟩
theorem movs2i (rd : Reg) : Statement (.movs2i rd) := ⟨rfl, rfl⟩
theorem movi2s (rs2 : Reg) : Statement (.movi2s rs2) := ⟨rfl, rfl⟩

end Sys2Proof.Laws.UnusedFieldsZero
end

