-- ==== Sys2Proof/Tests/Slice0.lean ====
section
/-!
SUPPORT. The author's tests, each a named theorem: the WellFormed checks refuse ill-formed terms, every
constructor's word decodes and encodes, one step of every instruction gives what the spec's tables of
95_test_vectors.md say, and the hypotheses of every statement are met by a concrete state.
-/

open Sys2Proof Sys2Proof.Machine

namespace Sys2Proof.Tests

-- Elaborated in one thread: many kernel evaluations at once exhaust the sandbox's memory.
set_option Elab.async false

/-! ## Helpers -/

/-- A small start state, by the conventions of 95_test_vectors.md: at PC = 0x100, with the given
registers, data words and ISCR. -/
def start (regs : List (Reg × Word)) (data : List (Word × Word)) (isc : Iscr) : State :=
  let s := { State.reset with pc := 0x100, iscr := isc, dmem := Memory.load [] data }
  regs.foldl (fun s p => s.setReg p.1 p.2) s

/-- The same state with a configuration. -/
def under (c : Config) (s : State) : State := { s with config := c }

def isNext : Result → Bool
  | .next _ => true
  | .fault _ => false
  | .refused _ => false

/-- The next state, where there is one. -/
def after : Result → State
  | .next t => t
  | .fault _ => State.reset
  | .refused _ => State.reset

/-- One step at the word `w` answers a next state with these registers, data words, PC and ISCR. -/
def gives (w : Nat) (s : State) (regs : List (Reg × Word)) (data : List (Word × Word)) (pc : Word)
    (isc : Iscr) : Bool :=
  let r := step (s.withFetchWord 32 w)
  let t := after r
  isNext r && regs.all (fun p => t.reg p.1 == p.2) &&
    data.all (fun p => t.dmem.word? p.1 == some p.2) && t.pc == pc && t.iscr == isc

/-! ## WellFormed: each check refuses an ill-formed term -/

/-- The default map with the opcode of `trm` replaced by that of `intm`. -/
def clashingMap : OpcodeMap := { codes := defaultOpcodes.codes.set 43 0x0A1 }

/-- The default map with `add` moved to an op8 of its own. -/
def splitPairMap : OpcodeMap := { codes := defaultOpcodes.codes.set 2 0x1F0 }

theorem test_injective_refuses_a_clash : clashingMap.injective = false := by decide +kernel

theorem test_pairs_refuse_a_split : splitPairMap.injective = true ∧
    splitPairMap.pairsShareOp8 = false ∧ splitPairMap.admissible = false := by decide +kernel

theorem test_pairs_refuse_equal_sel :
    ({ codes := defaultOpcodes.codes.set 2 0x021 } : OpcodeMap).pairsShareOp8 = false := by
  decide +kernel

theorem test_instr_under_a_clash_is_refused : (Instr.trm 1).wellFormed clashingMap = false ∧
    (Instr.intm 1).wellFormed clashingMap = false ∧
    (Instr.intgm 1).wellFormed clashingMap = true := by decide +kernel

theorem test_region_refuses_a_reversed_range :
    Region.wellFormed ⟨0x10, 0x0F, .device⟩ = false ∧
    Region.wellFormed ⟨0x10, 0x10, .device⟩ = true := by decide

/-- Two causes at once, or a cause without INC, name no entry. -/
theorem test_cause_bits_refused : Iscr.causeConsistent 0x0C1 = false ∧
    Iscr.causeConsistent 0x0A1 = false ∧ Iscr.causeConsistent 0x061 = false ∧
    Iscr.causeConsistent 0x080 = false ∧ Iscr.causeConsistent 0x081 = true := by decide

theorem test_config_refused :
    { Config.default with opcodes := clashingMap }.wellFormed = false ∧
    { Config.default with memMap := [⟨1, 0, .absent⟩] }.wellFormed = false ∧
    { Config.default with resetIscr := 0x0C0 }.wellFormed = false ∧
    Config.default.wellFormed = true := by decide +kernel

/-- Each operand class refuses a word with one unused field non-zero (R184). -/
theorem test_unused_field_refused :
    decodeWord defaultOpcodes .refuse 0x100C2201 = .malformed ∧
    decodeWord defaultOpcodes .refuse 0x01944100 = .malformed ∧
    decodeWord defaultOpcodes .refuse 0x0287BE01 = .malformed ∧
    decodeWord defaultOpcodes .refuse 0x300C2100 = .malformed ∧
    decodeWord defaultOpcodes .refuse 0x40842005 = .malformed ∧
    decodeWord defaultOpcodes .refuse 0x50802001 = .malformed ∧
    decodeWord defaultOpcodes .refuse 0x58042000 = .malformed ∧
    decodeWord defaultOpcodes .refuse 0x59002100 = .malformed := by decide +kernel

/-- The other two policies on the first of them (R189). -/
theorem test_unused_field_policies :
    decodeWord defaultOpcodes .ignore 0x100C2201 = .instr (.add 3 1 2) ∧
    decodeWord defaultOpcodes .uoe 0x100C2201 = .illegal := by decide +kernel

theorem test_memory_form_refused : Memory.wf [(5, 1), (4, 2)] = false ∧
    Memory.wf [(4, 1), (4, 2)] = false ∧ Memory.wf [(4 * 2 ^ 32, 1)] = false ∧
    Memory.wf [(4, 1), (4 * 2 ^ 32 - 1, 2)] = true := by decide

/-! ## Decoding: a word of every constructor, and its encoding

The words are written out in 95_test_vectors.md and the examples of files 40 to 47. -/

theorem test_word_lw : decodeTableWord 32 0x019440FF = some (.lw 5 2 0xFF) ∧
    encode defaultOpcodes (.lw 5 2 0xFF) = 0x019440FF := by decide +kernel
theorem test_word_sw : decodeTableWord 32 0x0283BE01 = some (.sw 29 30 0x01) ∧
    encode defaultOpcodes (.sw 29 30 0x01) = 0x0283BE01 := by decide +kernel
theorem test_word_add : decodeTableWord 32 0x100C2200 = some (.add 3 1 2) ∧
    encode defaultOpcodes (.add 3 1 2) = 0x100C2200 := by decide +kernel
theorem test_word_addi : decodeTableWord 32 0x108C2080 = some (.addi 3 1 0x80) ∧
    encode defaultOpcodes (.addi 3 1 0x80) = 0x108C2080 := by decide +kernel
theorem test_word_addu : decodeTableWord 32 0x110C2200 = some (.addu 3 1 2) ∧
    encode defaultOpcodes (.addu 3 1 2) = 0x110C2200 := by decide +kernel
theorem test_word_addui : decodeTableWord 32 0x118C2001 = some (.addui 3 1 0x01) ∧
    encode defaultOpcodes (.addui 3 1 0x01) = 0x118C2001 := by decide +kernel
theorem test_word_sub : decodeTableWord 32 0x120C2200 = some (.sub 3 1 2) ∧
    encode defaultOpcodes (.sub 3 1 2) = 0x120C2200 := by decide +kernel
theorem test_word_subi : decodeTableWord 32 0x128C20FF = some (.subi 3 1 0xFF) ∧
    encode defaultOpcodes (.subi 3 1 0xFF) = 0x128C20FF := by decide +kernel
theorem test_word_subu : decodeTableWord 32 0x130C2200 = some (.subu 3 1 2) ∧
    encode defaultOpcodes (.subu 3 1 2) = 0x130C2200 := by decide +kernel
theorem test_word_subui : decodeTableWord 32 0x138C20FF = some (.subui 3 1 0xFF) ∧
    encode defaultOpcodes (.subui 3 1 0xFF) = 0x138C20FF := by decide +kernel
theorem test_word_and : decodeTableWord 32 0x180C2200 = some (.and 3 1 2) ∧
    encode defaultOpcodes (.and 3 1 2) = 0x180C2200 := by decide +kernel
theorem test_word_andi : decodeTableWord 32 0x188C2080 = some (.andi 3 1 0x80) ∧
    encode defaultOpcodes (.andi 3 1 0x80) = 0x188C2080 := by decide +kernel
theorem test_word_or : decodeTableWord 32 0x190C2200 = some (.or 3 1 2) ∧
    encode defaultOpcodes (.or 3 1 2) = 0x190C2200 := by decide +kernel
theorem test_word_ori : decodeTableWord 32 0x198C2080 = some (.ori 3 1 0x80) ∧
    encode defaultOpcodes (.ori 3 1 0x80) = 0x198C2080 := by decide +kernel
theorem test_word_xor : decodeTableWord 32 0x1A14A400 = some (.xor 5 5 4) ∧
    encode defaultOpcodes (.xor 5 5 4) = 0x1A14A400 := by decide +kernel
theorem test_word_xori : decodeTableWord 32 0x1A8C20FF = some (.xori 3 1 0xFF) ∧
    encode defaultOpcodes (.xori 3 1 0xFF) = 0x1A8C20FF := by decide +kernel
theorem test_word_li1 : decodeTableWord 32 0x1D8C200F = some (.li1 3 1 0x0F) ∧
    encode defaultOpcodes (.li1 3 1 0x0F) = 0x1D8C200F := by decide +kernel
theorem test_word_li2 : decodeTableWord 32 0x1E8C60FF = some (.li2 3 3 0xFF) ∧
    encode defaultOpcodes (.li2 3 3 0xFF) = 0x1E8C60FF := by decide +kernel
theorem test_word_li3 : decodeTableWord 32 0x1F8C0080 = some (.li3 3 0 0x80) ∧
    encode defaultOpcodes (.li3 3 0 0x80) = 0x1F8C0080 := by decide +kernel
theorem test_word_slt : decodeTableWord 32 0x200C2200 = some (.slt 3 1 2) ∧
    encode defaultOpcodes (.slt 3 1 2) = 0x200C2200 := by decide +kernel
theorem test_word_slti : decodeTableWord 32 0x208C2000 = some (.slti 3 1 0x00) ∧
    encode defaultOpcodes (.slti 3 1 0x00) = 0x208C2000 := by decide +kernel
theorem test_word_sle : decodeTableWord 32 0x210C2200 = some (.sle 3 1 2) ∧
    encode defaultOpcodes (.sle 3 1 2) = 0x210C2200 := by decide +kernel
theorem test_word_slei : decodeTableWord 32 0x218C20FF = some (.slei 3 1 0xFF) ∧
    encode defaultOpcodes (.slei 3 1 0xFF) = 0x218C20FF := by decide +kernel
theorem test_word_seq : decodeTableWord 32 0x220C2200 = some (.seq 3 1 2) ∧
    encode defaultOpcodes (.seq 3 1 2) = 0x220C2200 := by decide +kernel
theorem test_word_seqi : decodeTableWord 32 0x228C2080 = some (.seqi 3 1 0x80) ∧
    encode defaultOpcodes (.seqi 3 1 0x80) = 0x228C2080 := by decide +kernel
theorem test_word_sne : decodeTableWord 32 0x230C2200 = some (.sne 3 1 2) ∧
    encode defaultOpcodes (.sne 3 1 2) = 0x230C2200 := by decide +kernel
theorem test_word_snei : decodeTableWord 32 0x238C20FF = some (.snei 3 1 0xFF) ∧
    encode defaultOpcodes (.snei 3 1 0xFF) = 0x238C20FF := by decide +kernel
theorem test_word_sgt : decodeTableWord 32 0x240C2200 = some (.sgt 3 1 2) ∧
    encode defaultOpcodes (.sgt 3 1 2) = 0x240C2200 := by decide +kernel
theorem test_word_sgti : decodeTableWord 32 0x248C20FF = some (.sgti 3 1 0xFF) ∧
    encode defaultOpcodes (.sgti 3 1 0xFF) = 0x248C20FF := by decide +kernel
theorem test_word_sge : decodeTableWord 32 0x250C2200 = some (.sge 3 1 2) ∧
    encode defaultOpcodes (.sge 3 1 2) = 0x250C2200 := by decide +kernel
theorem test_word_sgei : decodeTableWord 32 0x258C20FF = some (.sgei 3 1 0xFF) ∧
    encode defaultOpcodes (.sgei 3 1 0xFF) = 0x258C20FF := by decide +kernel
theorem test_word_shl : decodeTableWord 32 0x300C2000 = some (.shl 3 1) ∧
    encode defaultOpcodes (.shl 3 1) = 0x300C2000 := by decide +kernel
theorem test_word_shrl : decodeTableWord 32 0x310C2000 = some (.shrl 3 1) ∧
    encode defaultOpcodes (.shrl 3 1) = 0x310C2000 := by decide +kernel
theorem test_word_shra : decodeTableWord 32 0x320C2000 = some (.shra 3 1) ∧
    encode defaultOpcodes (.shra 3 1) = 0x320C2000 := by decide +kernel
theorem test_word_rotl : decodeTableWord 32 0x330C2000 = some (.rotl 3 1) ∧
    encode defaultOpcodes (.rotl 3 1) = 0x330C2000 := by decide +kernel
theorem test_word_rotr : decodeTableWord 32 0x340C2000 = some (.rotr 3 1) ∧
    encode defaultOpcodes (.rotr 3 1) = 0x340C2000 := by decide +kernel
theorem test_word_beqz : decodeTableWord 32 0x40802005 = some (.beqz 1 0x05) ∧
    encode defaultOpcodes (.beqz 1 0x05) = 0x40802005 := by decide +kernel
theorem test_word_bnez : decodeTableWord 32 0x418020FE = some (.bnez 1 0xFE) ∧
    encode defaultOpcodes (.bnez 1 0xFE) = 0x418020FE := by decide +kernel
theorem test_word_jr : decodeTableWord 32 0x488000FF = some (.jr 0 0xFF) ∧
    encode defaultOpcodes (.jr 0 0xFF) = 0x488000FF := by decide +kernel
theorem test_word_jsr : decodeTableWord 32 0x49F880FC = some (.jsr 30 4 0xFC) ∧
    encode defaultOpcodes (.jsr 30 4 0xFC) = 0x49F880FC := by decide +kernel
theorem test_word_trap : decodeTableWord 32 0x4A83E002 = some (.trap 31 0x02) ∧
    encode defaultOpcodes (.trap 31 0x02) = 0x4A83E002 := by decide +kernel
theorem test_word_intm : decodeTableWord 32 0x50800001 = some (.intm 0x01) ∧
    encode defaultOpcodes (.intm 0x01) = 0x50800001 := by decide +kernel
theorem test_word_intgm : decodeTableWord 32 0x51800001 = some (.intgm 0x01) ∧
    encode defaultOpcodes (.intgm 0x01) = 0x51800001 := by decide +kernel
theorem test_word_trm : decodeTableWord 32 0x52800001 = some (.trm 0x01) ∧
    encode defaultOpcodes (.trm 0x01) = 0x52800001 := by decide +kernel
theorem test_word_movs2i : decodeTableWord 32 0x58040000 = some (.movs2i 1) ∧
    encode defaultOpcodes (.movs2i 1) = 0x58040000 := by decide +kernel
theorem test_word_movi2s : decodeTableWord 32 0x59000100 = some (.movi2s 1) ∧
    encode defaultOpcodes (.movi2s 1) = 0x59000100 := by decide +kernel

/-! ## One step of every instruction (95_test_vectors.md, Part 2) -/

theorem test_lw_1 : gives 0x019440FF (start [(2, 0x1000)] [(0xFFF, 0x12345678)] 0x200)
    [(5, 0x12345678)] [] 0x101 0x200 = true := by decide +kernel
theorem test_lw_2 : gives 0x019440FD (start [(2, 0x2)] [(0xFFFFFFFF, 0x7)] 0x200)
    [(5, 0x7)] [] 0x101 0x200 = true := by decide +kernel
theorem test_sw_1 : gives 0x0283BE01 (start [(29, 0x80), (30, 0x12)] [] 0x200)
    [] [(0x81, 0x12)] 0x101 0x200 = true := by decide +kernel
theorem test_sw_2 : gives 0x028020FF (start [(1, 0x10)] [(0xF, 0xFFFFFFFF)] 0x200)
    [] [(0xF, 0x0)] 0x101 0x200 = true := by decide +kernel
theorem test_add_1 : gives 0x100C2200 (start [(1, 0x7FFFFFFF), (2, 0x1)] [] 0x200)
    [(3, 0x80000000), (31, 0x100)] [] 0x0 0x021 = true := by decide +kernel
theorem test_add_2 : gives 0x100C2200 (start [(1, 0xFFFFFFFF), (2, 0x1)] [] 0x200)
    [(3, 0x0)] [] 0x101 0x200 = true := by decide +kernel
theorem test_addi_1 : gives 0x108C2080 (start [(1, 0x8000007F)] [] 0x200)
    [(3, 0x7FFFFFFF), (31, 0x100)] [] 0x0 0x021 = true := by decide +kernel
theorem test_addi_2 : gives 0x108C2080 (start [(1, 0x80000080)] [] 0x200)
    [(3, 0x80000000)] [] 0x101 0x200 = true := by decide +kernel
theorem test_addu_1 : gives 0x110C2200 (start [(1, 0xFFFFFFFF), (2, 0x1)] [] 0x200)
    [(3, 0x0), (31, 0x100)] [] 0x0 0x021 = true := by decide +kernel
theorem test_addu_2 : gives 0x110C2200 (start [(1, 0xFFFFFFFF), (2, 0x0)] [] 0x200)
    [(3, 0xFFFFFFFF)] [] 0x101 0x200 = true := by decide +kernel
theorem test_addui_1 : gives 0x118C2001 (start [(1, 0xFFFFFFFF)] [] 0x200)
    [(3, 0x0), (31, 0x100)] [] 0x0 0x021 = true := by decide +kernel
theorem test_addui_2 : gives 0x118C2001 (start [(1, 0x7FFFFFFF)] [] 0x200)
    [(3, 0x80000000)] [] 0x101 0x200 = true := by decide +kernel
theorem test_sub_1 : gives 0x120C2200 (start [(1, 0x7FFFFFFF), (2, 0xFFFFFFFF)] [] 0x200)
    [(3, 0x80000000), (31, 0x100)] [] 0x0 0x021 = true := by decide +kernel
theorem test_sub_2 : gives 0x120C2200 (start [(1, 0x5), (2, 0x7)] [] 0x200)
    [(3, 0xFFFFFFFE)] [] 0x101 0x200 = true := by decide +kernel
theorem test_subi_1 : gives 0x128C20FF (start [(1, 0x7FFFFFFF)] [] 0x200)
    [(3, 0x80000000), (31, 0x100)] [] 0x0 0x021 = true := by decide +kernel
theorem test_subi_2 : gives 0x128C2080 (start [(1, 0x0)] [] 0x200)
    [(3, 0x80)] [] 0x101 0x200 = true := by decide +kernel
theorem test_subu_1 : gives 0x130C2200 (start [(1, 0x5), (2, 0x7)] [] 0x200)
    [(3, 0xFFFFFFFE), (31, 0x100)] [] 0x0 0x021 = true := by decide +kernel
theorem test_subu_2 : gives 0x130C2200 (start [(1, 0x80000000), (2, 0x1)] [] 0x200)
    [(3, 0x7FFFFFFF)] [] 0x101 0x200 = true := by decide +kernel
theorem test_subui_1 : gives 0x138C20FF (start [(1, 0xFE)] [] 0x200)
    [(3, 0xFFFFFFFF), (31, 0x100)] [] 0x0 0x021 = true := by decide +kernel
theorem test_subui_2 : gives 0x13F7A021 (start [(29, 0xA1)] [] 0x200)
    [(29, 0x80)] [] 0x101 0x200 = true := by decide +kernel
theorem test_and_1 : gives 0x180C2200 (start [(1, 0xF0F0F0F0), (2, 0xFF00FF00)] [] 0x200)
    [(3, 0xF000F000)] [] 0x101 0x200 = true := by decide +kernel
theorem test_andi_1 : gives 0x188C2080 (start [(1, 0xFFFFFF80)] [] 0x200)
    [(3, 0x80)] [] 0x101 0x200 = true := by decide +kernel
theorem test_or_1 : gives 0x190C2200 (start [(1, 0xF0F0F0F0), (2, 0xF0F0000)] [] 0x200)
    [(3, 0xFFFFF0F0)] [] 0x101 0x200 = true := by decide +kernel
theorem test_ori_1 : gives 0x198C2080 (start [(1, 0x100)] [] 0x200)
    [(3, 0x180)] [] 0x101 0x200 = true := by decide +kernel
theorem test_xor_1 : gives 0x1A14A400 (start [(5, 0xAAAAAAAA), (4, 0xFFFF0000)] [] 0x200)
    [(5, 0x5555AAAA)] [] 0x101 0x200 = true := by decide +kernel
theorem test_xori_1 : gives 0x1A8C20FF (start [(1, 0xFFFFFFFF)] [] 0x200)
    [(3, 0xFFFFFF00)] [] 0x101 0x200 = true := by decide +kernel
theorem test_li1_1 : gives 0x1D8C200F (start [(1, 0xF0AA)] [] 0x200)
    [(3, 0xFFAA)] [] 0x101 0x200 = true := by decide +kernel
theorem test_li2_1 : gives 0x1E8C60FF (start [(3, 0x7F000000)] [] 0x200)
    [(3, 0x7FFF0000)] [] 0x101 0x200 = true := by decide +kernel
theorem test_li3_1 : gives 0x1F8C0080 (start [] [] 0x200)
    [(3, 0x80000000)] [] 0x101 0x200 = true := by decide +kernel
theorem test_slt_1 : gives 0x200C2200 (start [(1, 0x80000000), (2, 0x7FFFFFFF)] [] 0x200)
    [(3, 0x1)] [] 0x101 0x200 = true := by decide +kernel
theorem test_slt_2 : gives 0x200C2200 (start [(1, 0x5), (2, 0x5)] [] 0x200)
    [(3, 0x0)] [] 0x101 0x200 = true := by decide +kernel
theorem test_slti_1 : gives 0x208C2000 (start [(1, 0x80000000)] [] 0x200)
    [(3, 0x1)] [] 0x101 0x200 = true := by decide +kernel
theorem test_slti_2 : gives 0x208C20FF (start [(1, 0xFFFFFFFF)] [] 0x200)
    [(3, 0x0)] [] 0x101 0x200 = true := by decide +kernel
theorem test_sle_1 : gives 0x210C2200 (start [(1, 0x80000000), (2, 0x7FFFFFFF)] [] 0x200)
    [(3, 0x1)] [] 0x101 0x200 = true := by decide +kernel
theorem test_sle_2 : gives 0x210C2200 (start [(1, 0x5), (2, 0x5)] [] 0x200)
    [(3, 0x1)] [] 0x101 0x200 = true := by decide +kernel
theorem test_slei_1 : gives 0x218C20FF (start [(1, 0xFFFFFFFF)] [] 0x200)
    [(3, 0x1)] [] 0x101 0x200 = true := by decide +kernel
theorem test_slei_2 : gives 0x218C20FF (start [(1, 0x0)] [] 0x200)
    [(3, 0x0)] [] 0x101 0x200 = true := by decide +kernel
theorem test_seq_1 : gives 0x220C2200 (start [(1, 0x5), (2, 0x5)] [] 0x200)
    [(3, 0x1)] [] 0x101 0x200 = true := by decide +kernel
theorem test_seq_2 : gives 0x220C2200 (start [(1, 0x80000000), (2, 0x7FFFFFFF)] [] 0x200)
    [(3, 0x0)] [] 0x101 0x200 = true := by decide +kernel
theorem test_seqi_1 : gives 0x228C2080 (start [(1, 0xFFFFFF80)] [] 0x200)
    [(3, 0x1)] [] 0x101 0x200 = true := by decide +kernel
theorem test_seqi_2 : gives 0x228C20FF (start [(1, 0x0)] [] 0x200)
    [(3, 0x0)] [] 0x101 0x200 = true := by decide +kernel
theorem test_sne_1 : gives 0x230C2200 (start [(1, 0x5), (2, 0x5)] [] 0x200)
    [(3, 0x0)] [] 0x101 0x200 = true := by decide +kernel
theorem test_sne_2 : gives 0x230C2200 (start [(1, 0x80000000), (2, 0x7FFFFFFF)] [] 0x200)
    [(3, 0x1)] [] 0x101 0x200 = true := by decide +kernel
theorem test_snei_1 : gives 0x238C20FF (start [(1, 0x0)] [] 0x200)
    [(3, 0x1)] [] 0x101 0x200 = true := by decide +kernel
theorem test_snei_2 : gives 0x238C20FF (start [(1, 0xFFFFFFFF)] [] 0x200)
    [(3, 0x0)] [] 0x101 0x200 = true := by decide +kernel
theorem test_sgt_1 : gives 0x240C2200 (start [(1, 0x5), (2, 0x5)] [] 0x200)
    [(3, 0x0)] [] 0x101 0x200 = true := by decide +kernel
/-- R269 by hand. -/
theorem test_sgt_2 : gives 0x240C2200 (start [(1, 0x1), (2, 0xFFFFFFFF)] [] 0x200)
    [(3, 0x1)] [] 0x101 0x200 = true := by decide +kernel
theorem test_sgti_1 : gives 0x248C20FF (start [(1, 0xFFFFFFFF)] [] 0x200)
    [(3, 0x0)] [] 0x101 0x200 = true := by decide +kernel
theorem test_sgti_2 : gives 0x248C207F (start [(1, 0x80)] [] 0x200)
    [(3, 0x1)] [] 0x101 0x200 = true := by decide +kernel
theorem test_sge_1 : gives 0x250C2200 (start [(1, 0x5), (2, 0x5)] [] 0x200)
    [(3, 0x1)] [] 0x101 0x200 = true := by decide +kernel
theorem test_sge_2 : gives 0x250C2200 (start [(1, 0x80000000), (2, 0x7FFFFFFF)] [] 0x200)
    [(3, 0x0)] [] 0x101 0x200 = true := by decide +kernel
theorem test_sgei_1 : gives 0x258C20FF (start [(1, 0x0)] [] 0x200)
    [(3, 0x1)] [] 0x101 0x200 = true := by decide +kernel
/-- R272 by hand. -/
theorem test_sgei_2 : gives 0x258C20FF (start [(1, 0xFFFFFFFE)] [] 0x200)
    [(3, 0x0)] [] 0x101 0x200 = true := by decide +kernel
theorem test_shl_1 : gives 0x300C2000 (start [(1, 0x80000001)] [] 0x200)
    [(3, 0x2)] [] 0x101 0x200 = true := by decide +kernel
theorem test_shl_2 : gives 0x300C2000 (start [(1, 0x40000000)] [] 0x200)
    [(3, 0x80000000)] [] 0x101 0x200 = true := by decide +kernel
theorem test_shrl_1 : gives 0x310C2000 (start [(1, 0x80000001)] [] 0x200)
    [(3, 0x40000000)] [] 0x101 0x200 = true := by decide +kernel
theorem test_shra_1 : gives 0x320C2000 (start [(1, 0x80000001)] [] 0x200)
    [(3, 0xC0000000)] [] 0x101 0x200 = true := by decide +kernel
theorem test_shra_2 : gives 0x320C2000 (start [(1, 0x40000000)] [] 0x200)
    [(3, 0x20000000)] [] 0x101 0x200 = true := by decide +kernel
theorem test_rotl_1 : gives 0x330C2000 (start [(1, 0x80000001)] [] 0x200)
    [(3, 0x3)] [] 0x101 0x200 = true := by decide +kernel
theorem test_rotl_2 : gives 0x330C2000 (start [(1, 0x40000000)] [] 0x200)
    [(3, 0x80000000)] [] 0x101 0x200 = true := by decide +kernel
theorem test_rotr_1 : gives 0x340C2000 (start [(1, 0x80000001)] [] 0x200)
    [(3, 0xC0000000)] [] 0x101 0x200 = true := by decide +kernel
theorem test_rotr_2 : gives 0x340C2000 (start [(1, 0x40000000)] [] 0x200)
    [(3, 0x20000000)] [] 0x101 0x200 = true := by decide +kernel
theorem test_beqz_1 : gives 0x40802005 (start [(1, 0x0)] [] 0x200)
    [] [] 0x105 0x200 = true := by decide +kernel
theorem test_beqz_2 : gives 0x40802005 (start [(1, 0x1)] [] 0x200)
    [] [] 0x101 0x200 = true := by decide +kernel
theorem test_bnez_1 : gives 0x418020FE (start [(1, 0x9)] [] 0x200)
    [] [] 0xFE 0x200 = true := by decide +kernel
theorem test_bnez_2 : gives 0x418020FE (start [(1, 0x0)] [] 0x200)
    [] [] 0x101 0x200 = true := by decide +kernel
theorem test_jr_1 : gives 0x488000FF (start [] [] 0x200)
    [] [] 0xFFFFFFFF 0x200 = true := by decide +kernel
theorem test_jr_2 : gives 0x48802080 (start [(1, 0x10)] [] 0x200)
    [] [] 0xFFFFFF90 0x200 = true := by decide +kernel
theorem test_jsr_1 : gives 0x49F880FC (start [(4, 0x204)] [] 0x200)
    [(30, 0x100)] [] 0x200 0x200 = true := by decide +kernel
theorem test_jsr_2 : gives 0x49FBC002 (start [(30, 0x300)] [] 0x200)
    [(30, 0x100)] [] 0x302 0x200 = true := by decide +kernel
theorem test_trap_1 : gives 0x4A83E002 (start [(31, 0x500)] [] 0x200)
    [(31, 0x100)] [] 0x502 0x081 = true := by decide +kernel
theorem test_trap_2 : gives 0x4A800040 (start [(31, 0xAAA)] [] 0x000)
    [(31, 0xAAA)] [] 0x40 0x000 = true := by decide +kernel
theorem test_intm_1 : gives 0x50800001 (start [] [] 0x208)
    [] [] 0x101 0x20C = true := by decide +kernel
theorem test_intm_2 : gives 0x50800002 (start [] [] 0x204)
    [] [] 0x101 0x200 = true := by decide +kernel
theorem test_intgm_1 : gives 0x51800001 (start [] [] 0x014)
    [] [] 0x101 0x214 = true := by decide +kernel
theorem test_intgm_2 : gives 0x51800000 (start [] [] 0x210)
    [] [] 0x101 0x010 = true := by decide +kernel
theorem test_trm_1 : gives 0x52800001 (start [] [] 0x200)
    [] [] 0x101 0x202 = true := by decide +kernel
theorem test_trm_2 : gives 0x52800000 (start [] [] 0x202)
    [] [] 0x101 0x200 = true := by decide +kernel
theorem test_movs2i_1 : gives 0x58040000 (start [] [] 0x1FF)
    [(1, 0x1FF)] [] 0x101 0x1FF = true := by decide +kernel
theorem test_movs2i_2 : gives 0x58040000 (start [] [] 0x210)
    [(1, 0x210), (31, 0x100)] [] 0x0 0x011 = true := by decide +kernel
theorem test_movi2s_1 : gives 0x59000100 (start [(1, 0xFFFFFFFF)] [] 0x021)
    [] [] 0x101 0x33F = true := by decide +kernel
theorem test_movi2s_2 : gives 0x59000000 (start [] [] 0x3FF)
    [] [] 0x101 0x0E1 = true := by decide +kernel

/-! ## Illegal words, acceptance, entry, the shield, reset -/

theorem test_illegal_1 : gives 0x5A800000 (start [(31, 0xAAA)] [] 0x210)
    [(31, 0x100)] [] 0x0 0x051 = true := by decide +kernel
theorem test_illegal_2 : gives 0x00000000 (start [(31, 0xAAA)] [] 0x000)
    [(31, 0xAAA)] [] 0x101 0x000 = true := by decide +kernel
/-- S10: ARE outranks a pending NMI, which stays pending. -/
theorem test_are_before_nmi : gives 0x10906001 (start [(3, 0x7FFFFFFF)] [] 0x210)
    [(4, 0x80000000), (31, 0x100)] [] 0x0 0x031 = true := by decide +kernel
/-- S5, S6: an NMI at a taken branch saves the target with INC = 0, at one not taken its own address
with INC = 1. -/
theorem test_nmi_at_a_taken_branch : gives 0x40802010 (start [] [] 0x210)
    [(31, 0x110)] [] 0x0 0x010 = true := by decide +kernel
theorem test_nmi_at_an_untaken_branch : gives 0x41802010 (start [] [] 0x210)
    [(31, 0x100)] [] 0x0 0x011 = true := by decide +kernel
/-- S12: the entry's write to R31 is the one that stays. -/
theorem test_entry_after_jsr_to_r31 : gives 0x49FC0020 (start [] [] 0x210)
    [(31, 0x20)] [] 0x0 0x010 = true := by decide +kernel

/-- R331, R333: an active MI line sets MI with GM on and MASK off, and is not serviced. -/
theorem test_mi_accepted_not_serviced :
    gives 0x100C0000 { start [] [] 0x200 with miLine := true } [] [] 0x101 0x208 = true := by
  decide +kernel

/-- R332: with GM off it is not recorded. -/
theorem test_mi_not_accepted :
    gives 0x100C0000 { start [] [] 0x004 with miLine := true } [] [] 0x101 0x004 = true := by
  decide +kernel

/-- R290, R341: under PC_READ_BIAS = 1 what an entry after a taken branch saves carries no bias. -/
theorem test_saved_target_has_no_bias :
    gives 0x40802010 (under { Config.default with pcReadBias := 1 } (start [] [] 0x210)) [(31, 0x110)] []
      0 0x010 = true := by decide +kernel

/-- R358 with ISCR_WRITE_SHADOW = 1: the `jr` after `intgm 1` goes through, and the shield is used up. -/
theorem test_shadow :
    let s := under { Config.default with iscrWriteShadow := 1 } (start [(31, 0x105)] [] 0x002)
    let t := after (step (s.withFetchWord 32 0x51800001))
    t.iscr = 0x202 ∧ t.shadow = 1 ∧
    gives 0x4883E000 t [(31, 0x105)] [] 0x105 0x202 = true := by decide +kernel

/-- R370, R371: a reset raised at the boundary. -/
theorem test_reset_event :
    let l : ResetLoad := ⟨Vector.replicate 31 7, [(0, 0x51800001)], [(9, 8)]⟩
    let t := after (step { start [] [] 0x200 with env := [⟨false, false, [], some l⟩] })
    t.pc = 0 ∧ t.iscr = 0x100 ∧ t.reg 31 = 7 ∧ t.reg 0 = 0 ∧ t.imem.word? 0 = some 0x51800001 ∧
    t.dmem.word? 9 = some 8 ∧ t.dmem.word? 8 = none := by decide +kernel

/-- The first instruction after reset, placed where the step fetches it. -/
theorem test_first_instruction_after_reset :
    gives 0x51800001 State.reset [] [] 1 0x300 = true := by decide +kernel

theorem test_reset_memory_is_canonical : State.reset.imem.wf = true ∧ State.reset.dmem.wf = true ∧
    State.reset.devices.wf = true := by decide

/-- A store and a load at the last word address (R151, R166). -/
theorem test_last_address :
    let t := after (step ((start [(1, 0xFFFFFFFF), (2, 0xDEADBEEF)] [] 0).withFetchWord 32 0x02802200))
    t.dmem.word? 0xFFFFFFFF = some 0xDEADBEEF ∧ t.dmem.wf = true ∧ t.dmem.length = 4 := by
  decide +kernel

/-! ## Witnesses: the hypotheses of each statement are met -/

/-- Device registers at 0x1000 to 0x100F, nothing at 0x1010 to 0x101F, RAM elsewhere. -/
def mapped : Config :=
  { Config.default with memMap := [⟨0x1000, 0x100F, .device⟩, ⟨0x1010, 0x101F, .absent⟩] }

def unified : Config := { Config.default with unifiedMemory := true }

/-- `quiet` is met in each of its three ways, the last also with MI pending under MASK = 0 and with
MASK on. -/
theorem witness_quiet : ({ start [] [] 0x21E with shadow := 1 }).quiet ∧ (start [] [] 0x01E).quiet ∧
    (start [] [] 0x200).quiet ∧ (start [] [] 0x208).quiet ∧ (start [] [] 0x204).quiet := by decide

theorem witness_dropsInternal : ({ start [] [] 0x200 with shadow := 1 }).dropsInternal ∧
    (start [] [] 0x000).dropsInternal := by decide

theorem witness_takesInternal : (start [] [] 0x200).takesInternal ∧
    (start [] [] 0x3FF).takesInternal := by decide

theorem witness_DecodeOfEncode : (Instr.sw 31 31 0xFF).wellFormed defaultOpcodes = true ∧
    (Instr.lw 0 0 0).wellFormed defaultOpcodes = true := by decide +kernel

theorem witness_EncodeOfDecode : decodeWord defaultOpcodes .refuse 0x0283FFFF = .instr (.sw 31 31 0xFF) := by
  decide +kernel

theorem witness_injective : defaultOpcodes.injective = true := by decide +kernel

/-- One word for each clause: unassigned opcode, unused field zero, unused field not zero. -/
theorem witness_DecodingClauses :
    (∀ o, defaultOpcodes.code o ≠ (0x00000000 : Word).extractLsb' 23 9) ∧
    (defaultOpcodes.code .add = (0x100C2200 : Word).extractLsb' 23 9 ∧
      Op.add.operandClass.unusedZero (operandFields 0x100C2200) = true) ∧
    (defaultOpcodes.code .add = (0x100C22FF : Word).extractLsb' 23 9 ∧
      Op.add.operandClass.unusedZero (operandFields 0x100C22FF) = false) := by
  refine ⟨fun o => ?_, ?_, ?_⟩
  · cases o <;> decide +kernel
  · decide +kernel
  · decide +kernel

theorem witness_ResetEvent :
    ({ start [] [] 0x200 with env := [⟨true, true, [], some ⟨Vector.replicate 31 7, [], []⟩⟩] }).pendingReset =
      some ⟨Vector.replicate 31 7, [], []⟩ := by decide

/-- A state after reset with a first instruction: the invariant holds, no reset is raised, the step
answers a next state. -/
theorem witness_Invariant : (State.reset.withFetchWord 32 0x51800001).inv = true ∧
    (State.reset.withFetchWord 32 0x51800001).pendingReset = none ∧
    isNext (step (State.reset.withFetchWord 32 0x51800001)) = true := by decide +kernel

/-- `lw` of RAM at both ends of the address space, and of text on a unified memory. -/
theorem witness_LwLoads :
    ((start [] [] 0x200).quiet ∧ (start [] [] 0x200).config.unifiedMemory = false ∧
      (start [] [] 0x200).kindAt ((start [] [] 0x200).reg 0 + (0xFF : Imm).signExtend 32) = .ram ∧
      (start [] [] 0x200).kindAt ((start [] [] 0x200).reg 0 + (0x00 : Imm).signExtend 32) = .ram) ∧
    (let s := (under unified (start [(1, 0x101)] [] 0x200)).withFetchWord 32 0x018C20FF
     s.quiet ∧ s.config.unifiedMemory = true ∧
      s.imem.word? (s.reg 1 + (0xFF : Imm).signExtend 32) = some 0x018C20FF) := by decide +kernel

/-- The ends of a device region and of an unpopulated one, and their outer neighbours in RAM. -/
theorem witness_Regions :
    let s := under mapped (start [(1, 0x1000)] [] 0x200)
    s.quiet ∧ s.config.unifiedMemory = false ∧
    s.kindAt (s.reg 1 + (0x00 : Imm).signExtend 32) = .device ∧
    s.kindAt (s.reg 1 + (0x0F : Imm).signExtend 32) = .device ∧
    s.kindAt (s.reg 1 + (0x10 : Imm).signExtend 32) = .absent ∧
    s.kindAt (s.reg 1 + (0x1F : Imm).signExtend 32) = .absent ∧
    s.kindAt (s.reg 1 + (0xFF : Imm).signExtend 32) = .ram ∧
    s.kindAt (s.reg 1 + (0x20 : Imm).signExtend 32) = .ram ∧
    s.devices.word? (s.reg 1 + (0x00 : Imm).signExtend 32) = none ∧
    ({ s with devices := Memory.load [] [(0x100F, 5)] }).devices.word?
      (s.reg 1 + (0x0F : Imm).signExtend 32) = some 5 := by decide +kernel

/-- Both sides of the equivalence about `sw`: refused, and not. -/
theorem witness_SwRefused :
    (let s := (under unified (start [(1, 0x100)] [] 0)).withFetchWord 32 0x02802200
     exec (.sw 1 2 0) s = .refused .storeToProgramText) ∧
    isNext (exec (.sw 1 2 1) ((under unified (start [(1, 0x100)] [] 0)).withFetchWord 32 0x02802200)) =
      true := ⟨rfl, by decide +kernel⟩

/-- The exact signed result at each end of its range. -/
theorem witness_SignedRange :
    let s := start [(1, 0x7FFFFFFE), (2, 0x00000001), (3, 0x80000001), (4, 0xFFFFFFFF)] [] 0x200
    s.quiet ∧ (s.reg 1).toInt + (s.reg 2).toInt = 2 ^ 31 - 1 ∧
    (s.reg 3).toInt + (s.reg 4).toInt = -2 ^ 31 ∧
    (s.reg 1).toInt + (0x01 : Imm).toInt = 2 ^ 31 - 1 ∧
    (s.reg 3).toInt + (0xFF : Imm).toInt = -2 ^ 31 ∧
    (s.reg 1).toInt - (s.reg 4).toInt = 2 ^ 31 - 1 ∧
    (s.reg 3).toInt - (s.reg 2).toInt = -2 ^ 31 ∧
    (s.reg 1).toInt - (0xFF : Imm).toInt = 2 ^ 31 - 1 ∧
    (s.reg 3).toInt - (0x01 : Imm).toInt = -2 ^ 31 := by decide +kernel

/-- The exact unsigned result at each end of its range. -/
theorem witness_UnsignedRange :
    let s := start [(1, 0xFFFFFFFE), (2, 0x00000001), (3, 0x000000FF)] [] 0x200
    s.quiet ∧ (s.reg 1).toNat + (s.reg 2).toNat ≤ 2 ^ 32 - 1 ∧
    (s.reg 1).toNat + (0x01 : Imm).toNat ≤ 2 ^ 32 - 1 ∧
    (s.reg 2).toNat ≤ (s.reg 2).toNat ∧ (0xFF : Imm).toNat ≤ (s.reg 3).toNat := by decide +kernel

/-- Every overflow at the first value outside the range. -/
theorem witness_Overflows :
    let s := start [(1, 0x7FFFFFFF), (2, 1), (3, 0x80000000), (4, 0xFFFFFFFF)] [] 0
    addOverflow (s.reg 1) (s.reg 2) = true ∧
    addOverflow (s.reg 3) ((0xFF : Imm).signExtend 32) = true ∧
    subOverflow (s.reg 1) (s.reg 4) = true ∧
    subOverflow (s.reg 3) ((0x01 : Imm).signExtend 32) = true ∧
    2 ^ 32 - 1 < (s.reg 4).toNat + (s.reg 2).toNat ∧
    2 ^ 32 - 1 < (s.reg 4).toNat + (0x01 : Imm).toNat ∧
    (s.reg 0).toNat < (s.reg 2).toNat ∧ (s.reg 0).toNat < (0x01 : Imm).toNat ∧
    s.dropsInternal ∧ ({ s with iscr := 0x200 }).takesInternal := by decide +kernel

theorem witness_Branches : (start [(1, 0x80000000)] [] 0x200).quiet ∧
    (start [(1, 0x80000000)] [] 0x200).reg 1 ≠ 0 ∧
    (start [(1, 0x80000000)] [] 0x200).reg 2 = 0 := by decide

theorem witness_NmiPending : (start [] [] 0x210).takesInternal ∧
    (start [] [] 0x210).bit .nmi = true := by decide

theorem witness_IscrWrites : (Instr.intm 0).isIscrWrite = true ∧ (Instr.intgm 1).isIscrWrite = true ∧
    (Instr.trm 1).isIscrWrite = true ∧ (Instr.movi2s 31).isIscrWrite = true := by decide

/-- One state for each clause of the decision. -/
theorem witness_Decision :
    let e : Ending := ⟨0x101, 0x100, false, none, false⟩
    ((start [] [] 0x210).servicedCause { e with writesIscr := true } = none) ∧
    (start [] [] 0x21E).takesInternal ∧ e.writesIscr = false ∧ e.request = none ∧
    ((start [] [] 0x21E).bit .nmi = true) ∧
    ((start [] [] 0x20E).bit .nmi = false ∧ (start [] [] 0x20E).bit .mi = true ∧
      (start [] [] 0x20E).bit .mask = true) ∧
    ((start [] [] 0x20A).bit .mask = false ∧ (start [] [] 0x20A).bit .trm = true) ∧
    ((start [] [] 0x208).bit .trm = false ∧ (start [] [] 0x208).bit .mask = false) := by decide

/-- GM off and on with active lines, and an MI that is serviced. -/
theorem witness_Gates :
    (start [] [] 0x004).bit .gm = false ∧
    (let s := { start [] [] 0x200 with nmiLine := true, miLine := true }
     s.bit .gm = true ∧ s.takeInput.nmiLine = true ∧ s.takeInput.miLine = true) ∧
    (start [] [] 0x20C).servicedCause ⟨0x101, 0x100, false, none, false⟩ = some .mi := by decide

/-- An instruction of each kind that the precision statement tells apart: TRAP posted, ARE posted, NMI
at a taken jump and at another instruction, nothing pending; each completes on its own. -/
theorem witness_Precise :
    let s := start [(1, 0x7FFFFFFF)] [] 0x210
    s.shadow = 0 ∧ s.bit .gm = true ∧ s.bit .nmi = true ∧
    (Instr.trap 1 0).isIscrWrite = false ∧ (Instr.trap 1 0).posts s = some (.trap 0x7FFFFFFF) ∧
    isNext (exec (.trap 1 0) s.shielded) = true ∧
    (Instr.add 2 1 1).isIscrWrite = false ∧ (Instr.add 2 1 1).posts s = some .are ∧
    isNext (exec (.add 2 1 1) s.shielded) = true ∧
    (Instr.beqz 0 5).posts s = none ∧ (Instr.beqz 0 5).takenJump s = true ∧
    isNext (exec (.beqz 0 5) s.shielded) = true ∧
    (Instr.bnez 0 5).posts s = none ∧ (Instr.bnez 0 5).takenJump s = false ∧
    isNext (exec (.bnez 0 5) s.shielded) = true ∧
    s.config.pcReadBias = 0 ∧ (Instr.jr 0 5).op ≠ .beqz ∧ (Instr.jr 0 5).op ≠ .bnez ∧
    (Instr.jr 0 5).posts s = none ∧ isNext (exec (.jr 0 5) s.shielded) = true ∧
    (start [] [] 0x200).bit .nmi = false ∧ (start [] [] 0x200).bit .mi = false ∧
    (start [] [] 0x200).bit .trm = false := by decide +kernel

/-- An illegal word, serviced and not. -/
theorem witness_Illegal :
    (let s := (start [] [] 0x200).withFetchWord 32 0
     s.pendingReset = none ∧ s.atBoundary.fetch = some 0 ∧ s.atBoundary.decode 0 = .illegal ∧
      s.atBoundary.takesInternal) ∧
    (let s := (start [] [] 0x000).withFetchWord 32 0xFFFFFFFF
     s.pendingReset = none ∧ s.atBoundary.fetch = some 0xFFFFFFFF ∧
      s.atBoundary.decode 0xFFFFFFFF = .illegal ∧ s.atBoundary.dropsInternal) := by decide +kernel

/-- A boundary with no input queued, and one with an input that drives a word twice and another once;
a key outside both words. -/
theorem witness_Boundary : (start [] [] 0x200).env = [] ∧
    (let e : EnvInput := ⟨true, false, [(5, 6), (9, 8), (5, 7)], none⟩
     ({ start [] [] 0x200 with env := [e] }).env = e :: [] ∧
      e.devices.reverse.lookup 5 = some 7 ∧ e.devices.reverse.lookup 9 = some 8 ∧
      (∀ p ∈ e.devices, ∀ k, k < 4 → 24 ≠ 4 * p.1.toNat + k)) := by
  refine ⟨rfl, rfl, rfl, rfl, fun p hp k hk => ?_⟩
  simp only [List.mem_cons, List.not_mem_nil, or_false] at hp
  rcases hp with rfl | rfl | rfl <;> simp <;> omega

/-- The word at PC decodes; there is none; it is malformed. -/
theorem witness_Step :
    (let s := (start [] [] 0).withFetchWord 32 0x100C2200
     s.pendingReset = none ∧ s.imem.word? s.pc = some 0x100C2200 ∧
      decodeWord s.config.opcodes s.config.unusedFields 0x100C2200 = .instr (.add 3 1 2)) ∧
    ((start [] [] 0).pendingReset = none ∧ (start [] [] 0).imem.word? (start [] [] 0).pc = none) ∧
    (let s := (start [] [] 0).withFetchWord 32 0x100C2201
     s.imem.word? s.pc = some 0x100C2201 ∧
      decodeWord s.config.opcodes s.config.unusedFields 0x100C2201 = .malformed) := by decide +kernel

theorem witness_TwoMemories : (start [] [] 0).config.unifiedMemory = false ∧
    exec (.sw 1 2 0) ((under unified (start [(1, 0x100)] [] 0)).withFetchWord 32 0x02802200) =
      .refused .storeToProgramText := ⟨rfl, rfl⟩

/-- A step of an illegal word that changes UOE, and an entry after a jump that switches INC off. -/
theorem witness_CauseBits :
    (let s := (start [] [] 0x200).withFetchWord 32 0
     s.pendingReset = none ∧ isNext (step s) = true ∧ (after (step s)).bit .uoe ≠ s.bit .uoe) ∧
    (let s := (start [] [] 0x211).withFetchWord 32 0x48800040
     s.pendingReset = none ∧ isNext (step s) = true ∧ (after (step s)).bit .inc ≠ s.bit .inc) := by
  decide +kernel

/-- A step that changes TRAP and INC, a step that switches GM on, and a step of a plain instruction
with NMI and MI on. -/
theorem witness_WholeMachine :
    (let s := (start [] [] 0x200).withFetchWord 32 0x4A800040
     s.pendingReset = none ∧ isNext (step s) = true ∧ (after (step s)).bit .trap ≠ s.bit .trap ∧
      (after (step s)).bit .inc ≠ s.bit .inc) ∧
    (let s := (start [] [] 0x000).withFetchWord 32 0x51800001
     s.pendingReset = none ∧ isNext (step s) = true ∧ s.bit .gm = false ∧
      (after (step s)).bit .gm = true) ∧
    (let s := (start [] [] 0x218).withFetchWord 32 0x100C2200
     s.pendingReset = none ∧ isNext (step s) = true ∧ s.bit .nmi = true ∧ s.bit .mi = true ∧
      s.imem.word? s.pc = some 0x100C2200 ∧ (Instr.add 3 1 2).op ≠ .intm ∧
      (Instr.add 3 1 2).op ≠ .trm ∧ (Instr.add 3 1 2).op ≠ .movi2s) := by decide +kernel

/-- An instruction that is not `sw`, whose rd is not R31, outside control transfer; and one whose step
ends in an entry that changes R31. -/
theorem witness_Frames : isNext (exec (.add 3 1 2) (start [] [] 0)) = true ∧
    (Instr.add 3 1 2).op ≠ .sw ∧ (Instr.add 3 1 2).fields.rd ≠ 31 ∧
    (Instr.add 3 1 2).op ∉ [Op.beqz, .bnez, .jr, .jsr, .trap] ∧
    isNext (exec (.add 3 1 2) (start [] [] 0x210)) = true ∧
    (after (exec (.add 3 1 2) (start [] [] 0x210))).reg 31 ≠ (start [] [] 0x210).reg 31 := by
  decide +kernel

theorem witness_TraceMode :
    let s := start [(31, 0x105)] [] 0x202
    s.bit .gm = true ∧ s.bit .trm = true ∧ s.bit .nmi = false ∧ s.bit .mi = false ∧ s.shadow = 0 ∧
    0 < ({ s with shadow := 1 }).shadow := by decide

/-- A handler's last two instructions, with TRM on (a TRM entry follows the `jr`) and with nothing
pending (it returns). -/
theorem witness_ReturnSequence :
    let s := ((start [(31, 0x105)] [] 0x002).loadImageWord 0x100 0x51800001).loadImageWord 0x101 0x4883E000
    s.config.opcodes.injective = true ∧
    s.imem.word? s.pc = some (encode s.config.opcodes (.intgm 1)) ∧
    s.imem.word? (s.pc + 1) = some (encode s.config.opcodes (.jr 31 0)) ∧
    s.pendingReset = none ∧ s.takeInput.pendingReset = none ∧
    (after (step (after (step s)))).pc = 0 ∧
    (after (step (after (step { s with iscr := 0 })))).pc = 0x105 := by decide +kernel

/-- Clauses of the idioms: a quiet state; direct addresses at both ends of the displacement; R0 as
destination. -/
theorem witness_Idioms :
    let s := start [(1, 0xFFFFFFFF)] [] 0x200
    s.quiet ∧ s.config.unifiedMemory = false ∧
    s.kindAt ((0x7F : Imm).signExtend 32) = .ram ∧ s.kindAt ((0x80 : Imm).signExtend 32) = .ram ∧
    s.kindAt (s.reg 1) = .ram ∧
    (Instr.addu 0 0 1).fields.rd = 0 ∧ (Instr.addu 0 0 1).posts s = none ∧
    (Instr.movs2i 0).fields.rd = 0 ∧ (Instr.movs2i 0).posts s = none ∧
    (Instr.addu 0 0 1).op ∉ [Op.lw, .sw, .beqz, .bnez, .jr, .jsr, .trap, .intm, .intgm, .trm, .movi2s] ∧
    (Instr.movs2i 0).op ∉ [Op.lw, .sw, .beqz, .bnez, .jr, .jsr, .trap, .intm, .intgm, .trm, .movi2s] := by
  decide +kernel

/-- All four bytes, in R254's order; one byte of a word with three zero bytes, shielded. -/
theorem witness_Constant :
    (∀ k, k ∉ [3, 2, 1, 0] → Idiom.byteOf 0xB3B2B1B0 k = 0) ∧ (start [] [] 0x208).quietFor 4 ∧
    (∀ k, k ∉ [1] → Idiom.byteOf 0x0000FF00 k = 0) ∧
    ({ start [] [] 0x210 with shadow := 1 }).quietFor 1 := by decide

/-- R254: `0xB3B2B1B0` by li3, li2, li1, ori, over an old value of the register. -/
theorem test_constant :
    Idiom.constant 5 0xB3B2B1B0 [3, 2, 1, 0] =
      [.li3 5 0 0xB3, .li2 5 5 0xB2, .li1 5 5 0xB1, .ori 5 5 0xB0] ∧
    (after (execAll (Idiom.constant 5 0xB3B2B1B0 [3, 2, 1, 0]) (start [(5, 0xFFFFFFFF)] [] 0))).reg 5 =
      0xB3B2B1B0 := by decide +kernel

/-- R195: `add R0, R0, R0` changes PC alone; `beqz R0, -16` goes back; `lw R3, R0, -1` reads the last word. -/
theorem test_idioms :
    gives 0x10000000 (start [(1, 7)] [] 0x001) [(1, 7)] [] 0x101 0x001 = true ∧
    gives 0x408000F0 (start [] [] 0) [] [] 0x0F0 0 = true ∧
    gives 0x018C00FF (start [] [(0xFFFFFFFF, 9)] 0) [(3, 9)] [] 0x101 0 = true := by decide +kernel

end Sys2Proof.Tests
end

section
/-!
The logical instructions (42_logical.md R241 to R246). All six are one shared operation, `writeReg`,
at six values: what it does when no request can be serviced is proved once, and an immediate form
differs from its register form only in the widened immediate.
-/

namespace Sys2Proof.Machine

/-! ### Writing one register with nothing serviceable -/

/-- `quiet` rests on the shield and ISCR, neither of which a register write touches. -/
theorem State.quiet_setReg {s : State} (hquiet : s.quiet) (rd : Reg) (v : Word) :
    (s.setReg rd v).quiet := by
  simpa [State.quiet] using hquiet

/-- The whole effect of `pc <- pc + 1` when no entry follows: PC and the shield (R127, R358). -/
theorem State.endPlain_of_quiet {s : State} (hquiet : s.quiet) :
    s.endPlain = { s.tickShadow false with pc := s.pc + 1 } :=
  State.conclude_of_none (State.servicedCause_quiet hquiet rfl)

/-- An instruction whose arm is `writeReg` changes rd and nothing else (R127). -/
theorem writesOnly_of_exec_eq_writeReg {i : Instr} {s : State} {rd : Reg} {v : Word}
    (hexec : exec i s = s.writeReg rd v) (hquiet : s.quiet) : WritesOnly i s rd v := by
  have hend := State.endPlain_of_quiet (State.quiet_setReg hquiet rd v)
  refine ⟨(s.setReg rd v).endPlain, hexec, ?reg, ?pc, ?iscr, ?shadow, ?data, ?outside⟩
  case reg =>
    intro q
    rw [hend]
    exact s.reg_setReg rd q v
  case pc => rw [hend]; rfl
  case iscr => rw [hend]; rfl
  case shadow => rw [hend]; rfl
  case data => exact (s.setReg rd v).conclude_sameData _
  case outside =>
    obtain ⟨himem, hdevices, hnmi, hmi, hconfig, henv, hbus, hdraws, hresets⟩ :=
      (s.setReg rd v).conclude_sameOutside _
    exact ⟨himem, hdevices, hnmi, hmi, hconfig, henv, hbus, hdraws, hresets⟩

/-! ### The arms and the widened immediate -/

/-- R109 writes `zext_32` as 24 zeros before the immediate; the model widens. -/
theorem zeros_append_eq_zext32 (imm : Imm) : 0#24 ++ imm = zext32 imm := by
  simp [zext32, BitVec.setWidth_eq_append]

section
variable (rd rs1 rs2 : Reg) (imm : Imm) (s : State)

theorem exec_and : exec (.and rd rs1 rs2) s = s.writeReg rd (s.reg rs1 &&& s.reg rs2) := rfl

theorem exec_andi :
    exec (.andi rd rs1 imm) s = s.writeReg rd (s.reg rs1 &&& (0#24 ++ imm)) := by
  rw [zeros_append_eq_zext32]; rfl

theorem exec_or : exec (.or rd rs1 rs2) s = s.writeReg rd (s.reg rs1 ||| s.reg rs2) := rfl

theorem exec_ori :
    exec (.ori rd rs1 imm) s = s.writeReg rd (s.reg rs1 ||| (0#24 ++ imm)) := by
  rw [zeros_append_eq_zext32]; rfl

theorem exec_xor : exec (.xor rd rs1 rs2) s = s.writeReg rd (s.reg rs1 ^^^ s.reg rs2) := rfl

theorem exec_xori :
    exec (.xori rd rs1 imm) s = s.writeReg rd (s.reg rs1 ^^^ (0#24 ++ imm)) := by
  rw [zeros_append_eq_zext32]; rfl

end

/-- Settles O19: each of the six arms is a `writeReg`, which writes rd alone. -/
theorem logicalResults : Obligations.LogicalResults := by
  unfold Obligations.LogicalResults
  intro rd rs1 rs2 imm s hquiet
  refine ⟨?and, ?andi, ?or, ?ori, ?xor, ?xori⟩
  case and => exact writesOnly_of_exec_eq_writeReg (exec_and rd rs1 rs2 s) hquiet
  case andi => exact writesOnly_of_exec_eq_writeReg (exec_andi rd rs1 imm s) hquiet
  case or => exact writesOnly_of_exec_eq_writeReg (exec_or rd rs1 rs2 s) hquiet
  case ori => exact writesOnly_of_exec_eq_writeReg (exec_ori rd rs1 imm s) hquiet
  case xor => exact writesOnly_of_exec_eq_writeReg (exec_xor rd rs1 rs2 s) hquiet
  case xori => exact writesOnly_of_exec_eq_writeReg (exec_xori rd rs1 imm s) hquiet

end Sys2Proof.Machine
end

section
/-!
The load-immediate instructions (43_load_immediate.md R251 to R253). The arm of each is the case of
`exec_loadByte` for its byte, so it is a `writeReg`; what is left is that shifting the widened immediate
places it between the zeros the spec writes out (R250).
-/

namespace Sys2Proof.Machine

/-! ### The immediate in a byte as a concatenation -/

/-- Zeros appended below are a shift to the left of the widened vector. -/
theorem append_zeros_eq_shiftLeft {m : Nat} (x : BitVec m) (n : Nat) :
    x ++ 0#n = x.setWidth (m + n) <<< n := by
  simp [BitVec.append_def, BitVec.shiftLeftZeroExtend_eq]

/-- Zeros before the immediate are no part of its value: both sides widen the immediate itself. -/
theorem setWidth_zeros_append (n : Nat) (imm : Imm) : (0#n ++ imm).setWidth 32 = zext32 imm := by
  simp [BitVec.setWidth_append, zeros_append_eq_zext32]

theorem append_eq_immInByte_one (imm : Imm) : 0#16 ++ imm ++ 0#8 = immInByte 1 imm := by
  rw [append_zeros_eq_shiftLeft, setWidth_zeros_append]; rfl

theorem append_eq_immInByte_two (imm : Imm) : 0#8 ++ imm ++ 0#16 = immInByte 2 imm := by
  rw [append_zeros_eq_shiftLeft, setWidth_zeros_append]; rfl

theorem append_eq_immInByte_three (imm : Imm) : imm ++ 0#24 = immInByte 3 imm :=
  append_zeros_eq_shiftLeft imm 24

/-! ### The arms -/

section
variable (rd rs1 : Reg) (imm : Imm) (s : State)

theorem exec_li1 :
    exec (.li1 rd rs1 imm) s = s.writeReg rd (s.reg rs1 ||| (0#16 ++ imm ++ 0#8)) := by
  rw [append_eq_immInByte_one]
  exact exec_loadByte s 1 rd rs1 imm

theorem exec_li2 :
    exec (.li2 rd rs1 imm) s = s.writeReg rd (s.reg rs1 ||| (0#8 ++ imm ++ 0#16)) := by
  rw [append_eq_immInByte_two]
  exact exec_loadByte s 2 rd rs1 imm

theorem exec_li3 :
    exec (.li3 rd rs1 imm) s = s.writeReg rd (s.reg rs1 ||| (imm ++ 0#24)) := by
  rw [append_eq_immInByte_three]
  exact exec_loadByte s 3 rd rs1 imm

end

/-- Settles O20: each of the three arms is a `writeReg`, which writes rd alone. -/
theorem loadImmediateResults : Obligations.LoadImmediateResults := by
  unfold Obligations.LoadImmediateResults
  intro rd rs1 imm s hquiet
  refine ⟨?li1, ?li2, ?li3⟩
  case li1 => exact writesOnly_of_exec_eq_writeReg (exec_li1 rd rs1 imm s) hquiet
  case li2 => exact writesOnly_of_exec_eq_writeReg (exec_li2 rd rs1 imm s) hquiet
  case li3 => exact writesOnly_of_exec_eq_writeReg (exec_li3 rd rs1 imm s) hquiet

end Sys2Proof.Machine
end

section
/-!
The relational instructions (44_relational.md R260 to R272). Each arm is a `writeReg` of the 0/1 word of
its comparison. An immediate form compares with the immediate's own signed value: sign extension keeps
that value, and two words are equal exactly when their signed values are.
-/

namespace Sys2Proof.Machine

/-! ### The 0/1 result -/

/-- The result word of R260, written as the spec's "if REL then 1 else 0". -/
theorem boolWord_decide (p : Prop) [Decidable p] : boolWord (decide p) = if p then 1 else 0 := by
  by_cases hp : p <;> simp [boolWord, hp]

/-- An instruction whose arm writes the result of a comparison changes rd and nothing else (R260). -/
theorem writesOnly_of_exec_eq_boolWord {i : Instr} {s : State} {rd : Reg} {p : Prop} [Decidable p]
    (hexec : exec i s = s.writeReg rd (boolWord (decide p))) (hquiet : s.quiet) :
    WritesOnly i s rd (if p then 1 else 0) := by
  rw [boolWord_decide] at hexec
  exact writesOnly_of_exec_eq_writeReg hexec hquiet

/-! ### The signed value of the sign-extended immediate -/

@[simp] theorem toInt_sext32 (imm : Imm) : (sext32 imm).toInt = imm.toInt :=
  BitVec.toInt_signExtend_of_le (by decide)

/-- `seqi` and `snei` compare all 32 bits; that is the comparison of the signed values (R260). -/
theorem eq_sext32_iff_toInt_eq (w : Word) (imm : Imm) : w = sext32 imm ↔ w.toInt = imm.toInt := by
  rw [← BitVec.toInt_inj, toInt_sext32]

/-! ### The arms -/

section
variable (rd rs1 rs2 : Reg) (imm : Imm) (s : State)

theorem exec_slt : exec (.slt rd rs1 rs2) s =
    s.writeReg rd (boolWord (decide ((s.reg rs1).toInt < (s.reg rs2).toInt))) := rfl

theorem exec_slti : exec (.slti rd rs1 imm) s =
    s.writeReg rd (boolWord (decide ((s.reg rs1).toInt < imm.toInt))) := by
  rw [← toInt_sext32]; rfl

theorem exec_sle : exec (.sle rd rs1 rs2) s =
    s.writeReg rd (boolWord (decide ((s.reg rs1).toInt ≤ (s.reg rs2).toInt))) := rfl

theorem exec_slei : exec (.slei rd rs1 imm) s =
    s.writeReg rd (boolWord (decide ((s.reg rs1).toInt ≤ imm.toInt))) := by
  rw [← toInt_sext32]; rfl

theorem exec_seq : exec (.seq rd rs1 rs2) s =
    s.writeReg rd (boolWord (decide (s.reg rs1 = s.reg rs2))) := rfl

theorem exec_seqi : exec (.seqi rd rs1 imm) s =
    s.writeReg rd (boolWord (decide ((s.reg rs1).toInt = imm.toInt))) := by
  rw [← decide_eq_decide.mpr (eq_sext32_iff_toInt_eq _ imm)]; rfl

theorem exec_sne : exec (.sne rd rs1 rs2) s =
    s.writeReg rd (boolWord (decide (s.reg rs1 ≠ s.reg rs2))) := rfl

theorem exec_snei : exec (.snei rd rs1 imm) s =
    s.writeReg rd (boolWord (decide ((s.reg rs1).toInt ≠ imm.toInt))) := by
  rw [← decide_eq_decide.mpr (eq_sext32_iff_toInt_eq _ imm).not]; rfl

theorem exec_sgt : exec (.sgt rd rs1 rs2) s =
    s.writeReg rd (boolWord (decide ((s.reg rs1).toInt > (s.reg rs2).toInt))) := rfl

theorem exec_sgti : exec (.sgti rd rs1 imm) s =
    s.writeReg rd (boolWord (decide ((s.reg rs1).toInt > imm.toInt))) := by
  rw [← toInt_sext32]; rfl

theorem exec_sge : exec (.sge rd rs1 rs2) s =
    s.writeReg rd (boolWord (decide ((s.reg rs1).toInt ≥ (s.reg rs2).toInt))) := rfl

theorem exec_sgei : exec (.sgei rd rs1 imm) s =
    s.writeReg rd (boolWord (decide ((s.reg rs1).toInt ≥ imm.toInt))) := by
  rw [← toInt_sext32]; rfl

end

/-- Settles O22: each of the six arms writes the 0/1 word of the comparison with the immediate's own
signed value, to rd alone. -/
theorem relationalImmediateResults : Obligations.RelationalImmediateResults := by
  unfold Obligations.RelationalImmediateResults
  intro rd rs1 imm s hquiet
  refine ⟨?slti, ?slei, ?seqi, ?snei, ?sgti, ?sgei⟩
  case slti => exact writesOnly_of_exec_eq_boolWord (exec_slti rd rs1 imm s) hquiet
  case slei => exact writesOnly_of_exec_eq_boolWord (exec_slei rd rs1 imm s) hquiet
  case seqi => exact writesOnly_of_exec_eq_boolWord (exec_seqi rd rs1 imm s) hquiet
  case snei => exact writesOnly_of_exec_eq_boolWord (exec_snei rd rs1 imm s) hquiet
  case sgti => exact writesOnly_of_exec_eq_boolWord (exec_sgti rd rs1 imm s) hquiet
  case sgei => exact writesOnly_of_exec_eq_boolWord (exec_sgei rd rs1 imm s) hquiet

/-- Settles O21: each of the six arms writes the 0/1 word of its comparison to rd alone. -/
theorem relationalRegisterResults : Obligations.RelationalRegisterResults := by
  unfold Obligations.RelationalRegisterResults
  intro rd rs1 rs2 s hquiet
  refine ⟨?slt, ?sle, ?seq, ?sne, ?sgt, ?sge⟩
  case slt => exact writesOnly_of_exec_eq_boolWord (exec_slt rd rs1 rs2 s) hquiet
  case sle => exact writesOnly_of_exec_eq_boolWord (exec_sle rd rs1 rs2 s) hquiet
  case seq => exact writesOnly_of_exec_eq_boolWord (exec_seq rd rs1 rs2 s) hquiet
  case sne => exact writesOnly_of_exec_eq_boolWord (exec_sne rd rs1 rs2 s) hquiet
  case sgt => exact writesOnly_of_exec_eq_boolWord (exec_sgt rd rs1 rs2 s) hquiet
  case sge => exact writesOnly_of_exec_eq_boolWord (exec_sge rd rs1 rs2 s) hquiet

end Sys2Proof.Machine
end

section
/-!
The shift and rotate instructions (45_shift.md R281 to R285). Each arm is a `writeReg` of the
concatenation the spec prints. Going left, bits 30..0 move up and one bit enters at the bottom; going
right, bits 31..1 move down and one bit enters at the top: the five instructions differ in that bit.
-/

namespace Sys2Proof.Machine

/-! ### The concatenations as shifts and rotations -/

section
variable (w : Word) (b : BitVec 1)

/-- One place left: bit 0 is the entering bit, every other bit is the one below it. -/
theorem getElem_lowBits_append {i : Nat} (hi : i < 32) :
    (w.extractLsb' 0 31 ++ b : Word)[i] = if i = 0 then b[0] else w[i - 1] := by
  rw [BitVec.getElem_append]
  by_cases hbottom : i = 0
  · subst hbottom; rfl
  · have hmoved : ¬ i < 1 := by omega
    have hbelow : i - 1 < 32 := by omega
    simp [hbottom, hmoved, BitVec.getElem_extractLsb', BitVec.getLsbD_eq_getElem hbelow]

/-- One place right: bit 31 is the entering bit, every other bit is the one above it. -/
theorem getElem_append_highBits {i : Nat} (hi : i < 32) :
    (b ++ w.extractLsb' 1 31 : Word)[i] = if h : 1 + i < 32 then w[1 + i] else b[0] := by
  rw [BitVec.getElem_append]
  by_cases hmoved : i < 31
  · have habove : 1 + i < 32 := by omega
    simp [hmoved, habove, BitVec.getElem_extractLsb']
  · obtain rfl : i = 31 := by omega
    rfl

/-- Zero enters at the bottom (R281). -/
theorem lowBits_append_zero : w.extractLsb' 0 31 ++ 0#1 = w <<< 1 :=
  (BitVec.shiftLeft_eq_concat_of_lt (x := w) (n := 1) (by decide)).symm

/-- Zero enters at the top (R282). -/
theorem zero_append_highBits : 0#1 ++ w.extractLsb' 1 31 = w >>> 1 :=
  (BitVec.ushiftRight_eq_extractLsb'_of_lt (x := w) (n := 1) (by decide)).symm

/-- The sign bit enters at the top (R283). -/
theorem signBit_append_highBits :
    w.extractLsb' 31 1 ++ w.extractLsb' 1 31 = w.sshiftRight 1 := by
  apply BitVec.eq_of_getElem_eq
  intro i hi
  rw [getElem_append_highBits w _ hi, BitVec.getElem_sshiftRight hi]
  simp [BitVec.msb_eq_getLsbD_last]

/-- The bit that leaves at the top enters at the bottom (R284). -/
theorem lowBits_append_topBit :
    w.extractLsb' 0 31 ++ w.extractLsb' 31 1 = w.rotateLeft 1 := by
  apply BitVec.eq_of_getElem_eq
  intro i hi
  rw [getElem_lowBits_append w _ hi, BitVec.getElem_rotateLeft hi]
  by_cases hbottom : i = 0 <;> simp [hbottom]

/-- The bit that leaves at the bottom enters at the top (R285). -/
theorem bottomBit_append_highBits :
    w.extractLsb' 0 1 ++ w.extractLsb' 1 31 = w.rotateRight 1 := by
  apply BitVec.eq_of_getElem_eq
  intro i hi
  rw [getElem_append_highBits w _ hi, BitVec.getElem_rotateRight hi]
  by_cases hmoved : i < 31
  · have habove : 1 + i < 32 := by omega
    simp [hmoved, habove]
  · obtain rfl : i = 31 := by omega
    simp

end

/-! ### The arms -/

section
variable (rd rs1 : Reg) (s : State)

theorem exec_shl : exec (.shl rd rs1) s = s.writeReg rd (s.reg rs1 <<< 1) := by
  rw [← lowBits_append_zero]; rfl

theorem exec_shrl : exec (.shrl rd rs1) s = s.writeReg rd (s.reg rs1 >>> 1) := by
  rw [← zero_append_highBits]; rfl

theorem exec_shra : exec (.shra rd rs1) s = s.writeReg rd ((s.reg rs1).sshiftRight 1) := by
  rw [← signBit_append_highBits]; rfl

theorem exec_rotl : exec (.rotl rd rs1) s = s.writeReg rd ((s.reg rs1).rotateLeft 1) := by
  rw [← lowBits_append_topBit]; rfl

theorem exec_rotr : exec (.rotr rd rs1) s = s.writeReg rd ((s.reg rs1).rotateRight 1) := by
  rw [← bottomBit_append_highBits]; rfl

end

/-- Settles O23: each of the five arms writes the moved source to rd alone. -/
theorem shiftResults : Obligations.ShiftResults := by
  unfold Obligations.ShiftResults
  intro rd rs1 s hquiet
  refine ⟨?shl, ?shrl, ?shra, ?rotl, ?rotr⟩
  case shl => exact writesOnly_of_exec_eq_writeReg (exec_shl rd rs1 s) hquiet
  case shrl => exact writesOnly_of_exec_eq_writeReg (exec_shrl rd rs1 s) hquiet
  case shra => exact writesOnly_of_exec_eq_writeReg (exec_shra rd rs1 s) hquiet
  case rotl => exact writesOnly_of_exec_eq_writeReg (exec_rotl rd rs1 s) hquiet
  case rotr => exact writesOnly_of_exec_eq_writeReg (exec_rotr rd rs1 s) hquiet

end Sys2Proof.Machine
end

section
/-!
The register-indirect jump (46_control_transfer.md R293). An instruction that concludes without an entry
and writes no ISCR only moves PC and uses up one instruction of the shield; `jr` concludes at its target
and posts no request, so with nothing serviceable that is all it does.
-/

namespace Sys2Proof.Machine

/-- An instruction that only concludes, writes no ISCR and is followed by no entry goes to its next
address and changes nothing else (R127, R358). -/
theorem goesTo_of_exec_eq_conclude {i : Instr} {s : State} {e : Ending}
    (hexec : exec i s = .next (s.conclude e)) (hnoEntry : s.servicedCause e = none)
    (hnoWrite : e.writesIscr = false) : GoesTo i s e.next := by
  have hend : s.conclude e = { s.tickShadow false with pc := e.next } := by
    rw [State.conclude_of_none hnoEntry, hnoWrite]
  refine ⟨s.conclude e, hexec, ?pc, ?regs, ?iscr, ?shadow, s.conclude_sameData e,
    s.conclude_sameOutside e⟩
  case pc => rw [hend]
  case regs => rw [hend]; exact State.reg_congr rfl
  case iscr => rw [hend]; rfl
  case shadow => rw [hend]; rfl

/-- A jump that is taken with nothing serviceable goes to its target, whatever an entry would have
saved (R127, R336). -/
theorem goesTo_of_exec_eq_endJump {i : Instr} {s : State} {target saved : Word}
    (hexec : exec i s = .next (s.endJump target saved)) (hquiet : s.quiet) : GoesTo i s target :=
  goesTo_of_exec_eq_conclude hexec (State.servicedCause_quiet hquiet rfl) rfl

/-- The arm of `jr`: a jump to register plus displacement, which is also what an entry would save
(R293, R341). -/
theorem exec_jr (rs1 : Reg) (imm : Imm) (s : State) :
    exec (.jr rs1 imm) s =
      .next (s.endJump (s.reg rs1 + imm.signExtend 32) (s.reg rs1 + imm.signExtend 32)) := rfl

/-- Settles O30: `jr` is a taken jump, and a taken jump with nothing serviceable moves PC alone. -/
theorem jrGoesToRegisterPlusDisplacement : Obligations.JrGoesToRegisterPlusDisplacement := by
  unfold Obligations.JrGoesToRegisterPlusDisplacement
  intro rs1 imm s hquiet
  exact goesTo_of_exec_eq_endJump (exec_jr rs1 imm s) hquiet

end Sys2Proof.Machine
end

section
/-!
The special-register access instructions `movs2i` and `movi2s` (47_special_register.md R314 to R316).
`movs2i` is a `writeReg`, so without a request it changes rd alone, and a pending NMI is entered in its
step. `movi2s` concludes as an ISCR write, after which no entry follows in any state; the value it writes
takes the bits of one mask from rs2 and the others from the old ISCR.
-/

namespace Sys2Proof.Machine

/-! ### `movs2i` -/

/-- The arm of `movs2i`: ISCR under 22 zeros to rd (R314). -/
theorem exec_movs2i (rd : Reg) (s : State) :
    exec (.movs2i rd) s = s.writeReg rd (0#22 ++ s.iscr) := by
  have hzext : 0#22 ++ s.iscr = s.iscr.setWidth 32 := by
    simp [BitVec.setWidth_eq_append]
  rw [hzext]; rfl

/-- NMI is the first of the external and trace requests (R336). -/
theorem State.pendingCause_of_nmi {s : State} (hnmi : s.bit .nmi = true) :
    s.pendingCause = some .nmi := by
  simp [State.pendingCause, hnmi]

/-- `pc <- pc + 1` with NMI on and servicing possible is the entry of the NMI instead (R336, R340). -/
theorem State.endPlain_of_nmi {s : State} (htakes : s.takesInternal) (hnmi : s.bit .nmi = true) :
    ∃ e, s.endPlain = (s.tickShadow false).enter .nmi e := by
  have hcause := State.pendingCause_of_nmi hnmi
  exact ⟨_, State.conclude_of_some ((State.servicedCause_pending htakes rfl rfl).trans hcause)⟩

/-- An instruction that only computes a register value does not inhibit servicing: with NMI on it ends
in the handler, GM off, and rd written unless it is the register entry saves to (R336, R340, R342). -/
theorem entersNmi_of_exec_eq_writeReg {i : Instr} {s : State} {rd : Reg} {v : Word}
    (hexec : exec i s = s.writeReg rd v) (htakes : s.takesInternal) (hnmi : s.bit .nmi = true) :
    ∃ t, exec i s = .next t ∧ t.pc = s.config.intAddr ∧ t.bit .gm = false ∧
      (rd ≠ 0 → rd ≠ 31 → t.reg rd = v) := by
  obtain ⟨e, hend⟩ := State.endPlain_of_nmi (s := s.setReg rd v) htakes hnmi
  refine ⟨(s.setReg rd v).endPlain, hexec, ?pc, ?gm, ?result⟩
  case pc => rw [hend]; rfl
  case gm =>
    rw [hend]
    exact (State.enter_iscrEntered _ .nmi e).gm
  case result =>
    intro hzero hlink
    calc (s.setReg rd v).endPlain.reg rd
      _ = (s.setReg rd v).reg rd := State.reg_conclude _ _ hlink
      _ = v := by rw [State.reg_setReg, if_pos ⟨rfl, hzero⟩]

/-- Settles O35: the arm is a `writeReg`, which writes rd alone with nothing serviceable and is followed
by the entry of a pending NMI. -/
theorem movs2iReadsIscr : Obligations.Movs2iReadsIscr := by
  unfold Obligations.Movs2iReadsIscr
  intro rd s
  constructor
  · exact writesOnly_of_exec_eq_writeReg (exec_movs2i rd s)
  · exact entersNmi_of_exec_eq_writeReg (exec_movs2i rd s)

/-! ### `movi2s` -/

/-- An instruction that writes ISCR is followed by no entry (R316): PC goes on, the shield is set, and
nothing but ISCR is written. -/
theorem State.endIscrWrite_eq (s : State) :
    s.endIscrWrite = { s.tickShadow true with pc := s.pc + 1 } :=
  State.conclude_of_none (s.servicedCause_writesIscr rfl)

/-- An instruction whose arm gives ISCR a value and concludes as an ISCR write does that alone, in every
state. -/
theorem writesIscr_of_exec_eq_endIscrWrite {i : Instr} {s : State} {v : Iscr} {bits : IscrBit → Bool}
    (hexec : exec i s = .next { s with iscr := v }.endIscrWrite) (hbits : ∀ b, iscrGet v b = bits b) :
    WritesIscr i s bits := by
  rw [State.endIscrWrite_eq] at hexec
  refine ⟨_, hexec, hbits, rfl, ?regs, rfl, ?data, ?outside⟩
  case regs => exact State.reg_congr rfl
  case data => intro key; rfl
  case outside => constructor <;> intros <;> rfl

theorem exec_movi2s (rs2 : Reg) (s : State) :
    exec (.movi2s rs2) s = .next { s with iscr := movi2sIscr s.iscr (s.reg rs2) }.endIscrWrite := rfl

/-- The bits `movi2s` writes are those of the mask `0x31E`; the mask of the bits it keeps is the
complement (R315). -/
theorem iscrGet_movi2sIscr (old : Iscr) (v : Word) (b : IscrBit) :
    iscrGet (movi2sIscr old v) b = if iscrGet 0x31E b then v.getLsbD b.pos else iscrGet old b := by
  have hkept : iscrGet 0x0E1 b = !iscrGet 0x31E b := by cases b <;> rfl
  have hlow : (v.extractLsb' 0 10).getLsbD b.pos = v.getLsbD b.pos := by simp [b.pos_lt]
  calc iscrGet (movi2sIscr old v) b
    _ = (iscrGet old b && iscrGet 0x0E1 b || v.getLsbD b.pos && iscrGet 0x31E b) := by
      simp only [movi2sIscr, iscrGet, BitVec.getLsbD_or, BitVec.getLsbD_and, hlow]
    _ = if iscrGet 0x31E b then v.getLsbD b.pos else iscrGet old b := by
      rw [hkept]
      cases iscrGet 0x31E b <;> simp

/-- Settles O36: `movi2s` concludes as an ISCR write, and the mask has exactly the six bits named. -/
theorem movi2sWritesTheSixWritableBits : Obligations.Movi2sWritesTheSixWritableBits := by
  unfold Obligations.Movi2sWritesTheSixWritableBits
  intro rs2 s
  apply writesIscr_of_exec_eq_endIscrWrite (exec_movi2s rs2 s)
  intro b
  rw [iscrGet_movi2sIscr]
  cases b <;> rfl

end Sys2Proof.Machine
end

section
/-!
Encoding and decoding (30_encoding.md R180 to R196). Every bit of a word belongs to one of five fields, so
the decoder's extractions and the encoder's shifts undo each other. The opcode alone names the operation;
an operation and its fields are an instruction, whose unused fields are zero.
-/

namespace Sys2Proof

/-! ### The five fields of a word -/

/-- The field each bit of an encoded word belongs to (R181). -/
theorem getLsbD_encodeFields (opc : BitVec 9) (f : Fields) {i : Nat} (hi : i < 32) :
    (encodeFields opc f).getLsbD i =
      if i < 8 then f.imm.getLsbD i
      else if i < 13 then f.rs2.getLsbD (i - 8)
      else if i < 18 then f.rs1.getLsbD (i - 13)
      else if i < 23 then f.rd.getLsbD (i - 18)
      else opc.getLsbD (i - 23) := by
  have hout {n : Nat} (x : BitVec n) (k : Nat) : n ≤ k → x.getLsbD k = false :=
    BitVec.getLsbD_of_ge x k
  simp only [encodeFields, BitVec.getLsbD_or, BitVec.getLsbD_shiftLeft, BitVec.getLsbD_setWidth]
  grind

@[simp] theorem opcodeField_encodeFields (opc : BitVec 9) (f : Fields) :
    opcodeField (encodeFields opc f) = opc := by
  apply BitVec.eq_of_getLsbD_eq
  intro i hi
  rw [opcodeField, BitVec.getLsbD_extractLsb', getLsbD_encodeFields opc f (by omega)]
  grind

@[simp] theorem operandFields_encodeFields (opc : BitVec 9) (f : Fields) :
    operandFields (encodeFields opc f) = f := by
  obtain ⟨rd, rs1, rs2, imm⟩ := f
  simp only [operandFields, Fields.mk.injEq]
  refine ⟨?rd, ?rs1, ?rs2, ?imm⟩ <;> apply BitVec.eq_of_getLsbD_eq <;> intro i hi <;>
  · rw [BitVec.getLsbD_extractLsb', getLsbD_encodeFields opc _ (by omega)]
    grind

/-- The five fields cover all 32 bits, so a word is the encoding of its own fields (R181, R196). -/
theorem encodeFields_fields (w : Word) : encodeFields (opcodeField w) (operandFields w) = w := by
  apply BitVec.eq_of_getLsbD_eq
  intro i hi
  rw [getLsbD_encodeFields _ _ hi]
  simp only [opcodeField, operandFields, BitVec.getLsbD_extractLsb']
  grind

/-! ### Operations and their fields -/

theorem Op.mem_all (o : Op) : o ∈ Op.all := by cases o <;> decide

/-- The fields an instruction's class does not use are zero (R184). -/
theorem Instr.unusedZero_fields (i : Instr) : i.op.operandClass.unusedZero i.fields = true := by
  cases i <;> rfl

/-- Operation and fields determine the instruction (R187). -/
theorem Instr.instr_op_fields (i : Instr) : i.op.instr i.fields = i := by cases i <;> rfl

@[simp] theorem Op.op_instr (o : Op) (f : Fields) : (o.instr f).op = o := by cases o <;> rfl

/-- With the unused fields zero no field is lost in the instruction (R184, R187). -/
theorem Op.fields_instr {o : Op} {f : Fields} (h : o.operandClass.unusedZero f = true) :
    (o.instr f).fields = f := by
  obtain ⟨rd, rs1, rs2, imm⟩ := f
  cases o <;>
    simp_all [Op.operandClass, OperandClass.unusedZero, Op.instr, Instr.fields]

/-! ### The operation an opcode names -/

/-- The opcode of exactly one operation finds that operation. -/
theorem OpcodeMap.find_eq_some_of_unique {m : OpcodeMap} {c : BitVec 9} {o : Op} (hcode : m.code o = c)
    (hunique : ∀ o', m.code o' = c → o' = o) : m.find c = some o := by
  cases hfind : m.find c with
  | none => exact absurd hcode (by simpa using List.find?_eq_none.mp hfind o (Op.mem_all o))
  | some o' => rw [hunique o' (by simpa using List.find?_some hfind)]

/-- An opcode of no operation finds none. -/
theorem OpcodeMap.find_eq_none {m : OpcodeMap} {c : BitVec 9} (h : ∀ o, m.code o ≠ c) :
    m.find c = none :=
  List.find?_eq_none.mpr fun o _ => by simpa using h o

theorem OpcodeMap.code_of_find {m : OpcodeMap} {c : BitVec 9} {o : Op} (h : m.find c = some o) :
    m.code o = c := by simpa using List.find?_some h

theorem Instr.wellFormed_iff {m : OpcodeMap} {i : Instr} :
    i.wellFormed m = true ↔ ∀ o, m.code o = m.code i.op → o = i.op := by
  simp [Instr.wellFormed, Op.mem_all, imp_iff_not_or]

theorem OpcodeMap.code_inj {m : OpcodeMap} (h : m.injective = true) {o o' : Op}
    (hcode : m.code o = m.code o') : o = o' :=
  List.inj_on_of_nodup_map (by simpa [OpcodeMap.injective] using h) (Op.mem_all o) (Op.mem_all o') hcode

/-! ### Decoding once the operation is known -/

theorem decodeWord_of_find_none {m : OpcodeMap} {w : Word} (h : m.find (opcodeField w) = none)
    (p : UnusedFieldPolicy) : decodeWord m p w = .illegal := by simp [decodeWord, h]

/-- With the unused fields zero every policy gives the instruction (R187). -/
theorem decodeWord_of_unusedZero {m : OpcodeMap} {w : Word} {o : Op}
    (hfind : m.find (opcodeField w) = some o)
    (hzero : o.operandClass.unusedZero (operandFields w) = true) (p : UnusedFieldPolicy) :
    decodeWord m p w = .instr (o.instr (operandFields w)) := by simp [decodeWord, hfind, hzero]

/-- What the strict decoder accepts has a known opcode and zero in every unused field (R189). -/
theorem decodeWord_refuse_instr {m : OpcodeMap} {w : Word} {i : Instr}
    (h : decodeWord m .refuse w = .instr i) :
    ∃ o, m.find (opcodeField w) = some o ∧ o.operandClass.unusedZero (operandFields w) = true ∧
      i = o.instr (operandFields w) := by
  cases hfind : m.find (opcodeField w) with
  | none => rw [decodeWord_of_find_none hfind] at h; cases h
  | some o =>
    cases hzero : o.operandClass.unusedZero (operandFields w) with
    | false => simp [decodeWord, hfind, hzero] at h
    | true =>
      rw [decodeWord_of_unusedZero hfind hzero] at h
      cases h
      exact ⟨o, rfl, hzero, rfl⟩

/-! ### The obligations -/

/-- Settles O1: the opcode of the word finds the operation, and its fields are the instruction's. -/
theorem decodeOfEncodeIsTheInstruction : Obligations.DecodeOfEncodeIsTheInstruction := by
  unfold Obligations.DecodeOfEncodeIsTheInstruction
  intro m p i hwf
  have hfind : m.find (opcodeField (encode m i)) = some i.op := by
    rw [encode, opcodeField_encodeFields]
    exact OpcodeMap.find_eq_some_of_unique rfl (Instr.wellFormed_iff.mp hwf)
  have hfields : operandFields (encode m i) = i.fields := operandFields_encodeFields _ _
  have hzero : i.op.operandClass.unusedZero (operandFields (encode m i)) = true := by
    rw [hfields]; exact i.unusedZero_fields
  rw [decodeWord_of_unusedZero hfind hzero, hfields, i.instr_op_fields]

/-- Settles O2: opcode and fields of an accepted word are those of its instruction, and they make up
the whole word. -/
theorem encodeOfDecodeIsTheWord : Obligations.EncodeOfDecodeIsTheWord := by
  unfold Obligations.EncodeOfDecodeIsTheWord
  intro m w i h
  obtain ⟨o, hfind, hzero, rfl⟩ := decodeWord_refuse_instr h
  rw [encode, Op.op_instr, Op.fields_instr hzero, OpcodeMap.code_of_find hfind, encodeFields_fields]

/-- Settles O3: no two operations have one opcode. -/
theorem injectiveMapGivesEveryInstructionAWord :
    Obligations.InjectiveMapGivesEveryInstructionAWord := by
  unfold Obligations.InjectiveMapGivesEveryInstructionAWord
  intro m hinj i
  exact Instr.wellFormed_iff.mpr fun o hcode => OpcodeMap.code_inj hinj hcode

/-- Settles O4: under an injective map the opcode finds the operation that has it, or none. -/
theorem decodingFollowsOpcodeThenUnusedFields : Obligations.DecodingFollowsOpcodeThenUnusedFields := by
  unfold Obligations.DecodingFollowsOpcodeThenUnusedFields
  intro m p w hinj
  have hfind (o : Op) (hcode : m.code o = opcodeField w) : m.find (opcodeField w) = some o :=
    OpcodeMap.find_eq_some_of_unique hcode fun o' ho' => OpcodeMap.code_inj hinj (ho'.trans hcode.symm)
  refine ⟨?unassigned, ?clean, ?dirty⟩
  case unassigned =>
    intro h
    exact decodeWord_of_find_none (OpcodeMap.find_eq_none h) p
  case clean =>
    intro o hcode hzero
    exact decodeWord_of_unusedZero (hfind o hcode) hzero p
  case dirty =>
    intro o hcode hzero
    refine ⟨?_, ?_, ?_⟩ <;> simp [decodeWord, hfind o hcode, hzero]

/-- Settles O5: thirteen words, each decoded by evaluation. -/
theorem specWordsDecode : Obligations.SpecWordsDecode := by
  unfold Obligations.SpecWordsDecode
  decide +kernel

/-- Settles O6: 46 opcodes and thirteen pairs, by evaluation. -/
theorem defaultOpcodesAreAdmissible : Obligations.DefaultOpcodesAreAdmissible := by
  unfold Obligations.DefaultOpcodesAreAdmissible
  decide +kernel

end Sys2Proof
end

section
/-!
What an instruction can do, said once for all 46 (60_exceptions.md R335). An instruction first makes its own
writes, which are of one of five shapes, and then concludes with an ending that depends on its operands and
the state before it alone. `exec_cases` is the inversion of `exec` that the statements about every
instruction rest on.
-/

namespace Sys2Proof

open Machine

/-- The address an instruction goes on at where no entry follows it (R127, R290, R295). -/
def Instr.nextAddress (i : Instr) (s : State) : Word :=
  match i with
  | .jr rs1 imm | .jsr _ rs1 imm | .trap rs1 imm => s.regPlus rs1 imm
  | .beqz rs1 imm => if s.reg rs1 = 0 then s.branchTarget imm else s.pc + 1
  | .bnez rs1 imm => if s.reg rs1 ≠ 0 then s.branchTarget imm else s.pc + 1
  | _ => s.pc + 1

/-- How an instruction ends, from the state before it. -/
def Instr.ending (i : Instr) (s : State) : Ending where
  next := i.nextAddress s
  saved := i.returnAddress s
  jumped := i.takenJump s
  request := i.posts s
  writesIscr := i.isIscrWrite

/-- A bit of ISCR after an instruction's own writes (R311 to R313, R315). -/
def Instr.bitAfter (i : Instr) (s : State) (b : IscrBit) : Bool :=
  match i with
  | .intm imm => if b = .mask then imm.getLsbD 0 else s.bit b
  | .intgm imm => if b = .gm then imm.getLsbD 0 else s.bit b
  | .trm imm => if b = .trm then imm.getLsbD 0 else s.bit b
  | .movi2s rs2 => if iscrGet 0x31E b then (s.reg rs2).getLsbD b.pos else s.bit b
  | _ => s.bit b

/-- The shapes an instruction's own writes have (R335 item 3). -/
inductive Instr.Writes (i : Instr) (s : State) : State → Prop
  | nothing : Writes i s s
  | register (v : Word) : Writes i s (s.setReg i.fields.rd v)
  | load (a v : Word) (hop : i.op = .lw) : Writes i s ((s.memRead a).2.setReg i.fields.rd v)
  | store (data : Memory) (bus : List DeviceAccess) (hop : i.op = .sw)
      (hwf : s.dmem.wf = true → data.wf = true) : Writes i s { s with dmem := data, bus := bus }
  | iscr (v : Iscr) : Writes i s { s with iscr := v }

/-- `w` is the state between the own writes of `i` and its conclusion, and the same writes are made under
the shield. -/
structure Instr.Performs (i : Instr) (s w : State) : Prop where
  writes : i.Writes s w
  bit : ∀ b, w.bit b = i.bitAfter s b
  exec_eq : exec i s = .next (w.conclude (i.ending s))
  exec_shielded : exec i s.shielded = .next (w.shielded.conclude (i.ending s))

end Sys2Proof

namespace Sys2Proof.Machine

/-! ### Data access and the shield -/

/-- Data access does not look at the shield. -/
theorem State.memRead_shielded (s : State) (a : Word) :
    s.shielded.memRead a = ((s.memRead a).1, (s.memRead a).2.shielded) := by
  have htext : s.shielded.textAt a = s.textAt a := rfl
  have hkind : s.shielded.kindAt a = s.kindAt a := rfl
  unfold State.memRead
  rw [htext, hkind]
  cases s.textAt a with
  | some _ => rfl
  | none =>
    cases s.kindAt a with
    | ram => rfl
    | absent => rfl
    | device =>
      simp only [State.shielded_devices]
      cases s.devices.word? a <;> rfl

theorem State.memWrite_shielded (s : State) (a v : Word) :
    s.shielded.memWrite a v = (s.memWrite a v).map State.shielded := by
  have htext : s.shielded.textAt a = s.textAt a := rfl
  have hkind : s.shielded.kindAt a = s.kindAt a := rfl
  unfold State.memWrite
  rw [htext, hkind]
  cases s.textAt a with
  | some _ => rfl
  | none => cases s.kindAt a <;> rfl

/-- A store fails at program text, which only a unified memory shows to data access (R164). -/
theorem State.memWrite_eq_none_iff {s : State} {a v : Word} :
    s.memWrite a v = none ↔ s.config.unifiedMemory = true ∧ (s.imem.word? a).isSome = true := by
  have htext : (s.textAt a).isSome = true ↔
      s.config.unifiedMemory = true ∧ (s.imem.word? a).isSome = true := by
    unfold State.textAt
    split <;> simp_all
  rw [← htext]
  rcases s.memWrite_cases a v with ⟨hnone, hsome⟩ | ⟨hnone, ⟨-, hw⟩ | ⟨-, hw⟩ | ⟨-, hw⟩⟩ <;> simp [*]

/-- A store reaches data memory and the record of device accesses only. -/
theorem State.memWrite_eq_some {s w : State} {a v : Word} (h : s.memWrite a v = some w) :
    ∃ data bus, w = { s with dmem := data, bus := bus } ∧ (s.dmem.wf = true → data.wf = true) := by
  rcases s.memWrite_cases a v with ⟨hw, -⟩ | ⟨-, ⟨-, hw⟩ | ⟨-, hw⟩ | ⟨-, hw⟩⟩
  · rw [hw] at h; cases h
  · rw [hw] at h; cases h
    exact ⟨_, _, rfl, Memory.wf_putWord a v⟩
  · rw [hw] at h; cases h
    exact ⟨_, _, rfl, id⟩
  · rw [hw] at h; cases h
    exact ⟨_, _, rfl, id⟩

end Sys2Proof.Machine

namespace Sys2Proof

open Machine

/-! ### What the own writes leave unchanged -/

section
variable {i : Instr} {s w : State} (h : i.Writes s w)
include h

theorem Instr.Writes.pc : w.pc = s.pc := by cases h <;> simp
theorem Instr.Writes.imem : w.imem = s.imem := by cases h <;> simp
theorem Instr.Writes.devices : w.devices = s.devices := by cases h <;> simp
theorem Instr.Writes.shadow : w.shadow = s.shadow := by cases h <;> simp
theorem Instr.Writes.config : w.config = s.config := by cases h <;> simp

/-- Only a store reaches data memory (R151, R210). -/
theorem Instr.Writes.dmem (hop : i.op ≠ .sw) : w.dmem = s.dmem := by
  cases h with
  | store data bus hsw hwf => exact absurd hsw hop
  | _ => simp

theorem Instr.Writes.dmem_wf (hdata : s.dmem.wf = true) : w.dmem.wf = true := by
  cases h with
  | store data bus hop hwf => exact hwf hdata
  | _ => simpa using hdata

/-- Data access alone reaches what is outside registers, PC, ISCR, the shield and data memory (R158). -/
theorem Instr.Writes.sameOutside (hlw : i.op ≠ .lw) (hsw : i.op ≠ .sw) : s.SameOutside w := by
  cases h with
  | load a v hop => exact absurd hop hlw
  | store data bus hop hwf => exact absurd hop hsw
  | nothing | register v | iscr v => constructor <;> intros <;> rfl

/-- Only rd is written, and R0 has no storage (R121, R123). -/
theorem Instr.Writes.reg {q : Reg} (hq : q ≠ i.fields.rd) : w.reg q = s.reg q := by
  cases h with
  | nothing => rfl
  | register v => simp [State.reg_setReg, hq]
  | load a v hop =>
    rw [State.reg_setReg, if_neg fun hrd => hq hrd.1]
    exact State.reg_congr (s.memRead_gpr a) q
  | store data bus hop hwf => exact State.reg_congr rfl q
  | iscr v => exact State.reg_congr rfl q

end

end Sys2Proof

namespace Sys2Proof.Machine

/-! ### Each arm performs one of the shapes -/

section
variable {i : Instr} {s : State}

/-- An instruction that writes rd only if it did not overflow or ARE_WRITEBACK says so, and posts ARE on
overflow (R230, D12). -/
theorem performs_of_exec_eq_arith {r : Word} {overflow : Bool}
    (hexec : exec i s = s.arith i.fields.rd r overflow)
    (hshielded : exec i s.shielded = s.shielded.arith i.fields.rd r overflow)
    (hending : i.ending s = ⟨s.pc + 1, s.pc, false, if overflow then some .are else none, false⟩)
    (hbit : ∀ b, s.bit b = i.bitAfter s b) : ∃ w, i.Performs s w := by
  unfold State.arith at hexec hshielded
  by_cases hdropped : (overflow && !s.config.areWriteback) = true
  · refine ⟨s, .nothing, hbit, ?_, ?_⟩
    · rw [hexec, if_pos hdropped, hending]; rfl
    · rw [hshielded, State.shielded_config, if_pos hdropped, hending]; rfl
  · refine ⟨_, .register r, hbit, ?_, ?_⟩
    · rw [hexec, if_neg hdropped, hending]; rfl
    · rw [hshielded, State.shielded_config, if_neg hdropped, hending]; rfl

/-- A branch makes no writes; taken and not, its ending is that of R341's table. -/
theorem exec_beqz (rs1 : Reg) (imm : Imm) (s : State) :
    exec (.beqz rs1 imm) s = .next (s.conclude ((Instr.beqz rs1 imm).ending s)) := by
  by_cases hzero : s.reg rs1 = 0 <;>
  · simp only [exec, execBeqz, Instr.ending, Instr.nextAddress, Instr.returnAddress, Instr.takenJump,
      hzero, if_true, if_false, decide_true, decide_false]
    rfl

theorem exec_bnez (rs1 : Reg) (imm : Imm) (s : State) :
    exec (.bnez rs1 imm) s = .next (s.conclude ((Instr.bnez rs1 imm).ending s)) := by
  by_cases hzero : s.reg rs1 = 0 <;>
  · simp only [exec, execBnez, Instr.ending, Instr.nextAddress, Instr.returnAddress, Instr.takenJump,
      hzero, ne_eq, not_true_eq_false, not_false_eq_true, if_true, if_false, decide_true, decide_false]
    rfl

theorem performs_lw (rd rs1 : Reg) (imm : Imm) : ∃ w, (Instr.lw rd rs1 imm).Performs s w := by
  refine ⟨_, .load (s.regPlus rs1 imm) (s.memRead (s.regPlus rs1 imm)).1 rfl, ?bit, ?exec, ?shielded⟩
  case bit => exact fun b => State.bit_congr (s.memRead_iscr _) b
  case exec =>
    simp only [exec, execLw, State.endPlain, State.setReg_pc, State.memRead_pc]
    rfl
  case shielded =>
    have haddr : s.shielded.regPlus rs1 imm = s.regPlus rs1 imm := rfl
    simp only [exec, execLw, State.endPlain, State.setReg_pc, haddr, State.memRead_shielded,
      State.shielded_pc, State.memRead_pc]
    rfl

/-- A store is performed or, at program text on a unified memory, refused (R164). -/
theorem performs_sw (rs1 rs2 : Reg) (imm : Imm) :
    (∃ w, (Instr.sw rs1 rs2 imm).Performs s w) ∨
      (exec (.sw rs1 rs2 imm) s = .refused .storeToProgramText ∧
        exec (.sw rs1 rs2 imm) s.shielded = .refused .storeToProgramText ∧
        s.config.unifiedMemory = true) := by
  have haddr : s.shielded.regPlus rs1 imm = s.regPlus rs1 imm := rfl
  have hshielded := s.memWrite_shielded (s.regPlus rs1 imm) (s.reg rs2)
  cases hwrite : s.memWrite (s.regPlus rs1 imm) (s.reg rs2) with
  | none =>
    rw [hwrite] at hshielded
    refine .inr ⟨?_, ?_, (State.memWrite_eq_none_iff.mp hwrite).1⟩
    · simp only [exec, execSw, hwrite]
    · simp only [exec, execSw, haddr, State.reg_shielded, hshielded, Option.map_none]
  | some w =>
    rw [hwrite] at hshielded
    obtain ⟨data, bus, rfl, hwf⟩ := State.memWrite_eq_some hwrite
    refine .inl ⟨_, .store data bus rfl hwf, fun _ => rfl, ?exec, ?shielded⟩
    case exec => simp only [exec, execSw, hwrite]; rfl
    case shielded =>
      simp only [exec, execSw, haddr, State.reg_shielded, hshielded]; rfl

end

/-- EVERY INSTRUCTION in every state makes its own writes and concludes, but for a store to program text on
a unified memory, which is refused (R335, R164). -/
theorem exec_cases (i : Instr) (s : State) :
    (∃ w, i.Performs s w) ∨
      (exec i s = .refused .storeToProgramText ∧ exec i s.shielded = .refused .storeToProgramText ∧
        s.config.unifiedMemory = true ∧ ∃ rs1 rs2 imm, i = .sw rs1 rs2 imm) := by
  cases i with
  | lw rd rs1 imm => exact .inl (performs_lw rd rs1 imm)
  | sw rs1 rs2 imm =>
    exact (performs_sw rs1 rs2 imm).imp_right fun ⟨hexec, hshielded, hunified⟩ =>
      ⟨hexec, hshielded, hunified, _, _, _, rfl⟩
  | add | addi | addu | addui | sub | subi | subu | subui =>
    exact .inl (performs_of_exec_eq_arith rfl rfl rfl fun _ => rfl)
  | and | andi | or | ori | xor | xori | li1 | li2 | li3
  | slt | slti | sle | slei | seq | seqi | sne | snei | sgt | sgti | sge | sgei
  | shl | shrl | shra | rotl | rotr | movs2i | jsr =>
    exact .inl ⟨_, .register _, fun _ => rfl, rfl, rfl⟩
  | jr | trap => exact .inl ⟨_, .nothing, fun _ => rfl, rfl, rfl⟩
  | beqz rs1 imm =>
    exact .inl ⟨s, .nothing, fun _ => rfl, exec_beqz rs1 imm s, exec_beqz rs1 imm s.shielded⟩
  | bnez rs1 imm =>
    exact .inl ⟨s, .nothing, fun _ => rfl, exec_bnez rs1 imm s, exec_bnez rs1 imm s.shielded⟩
  | intm imm | intgm imm | trm imm =>
    exact .inl ⟨_, .iscr _, fun b => iscrGet_iscrPut _ _ b _, rfl, rfl⟩
  | movi2s rs2 => exact .inl ⟨_, .iscr _, iscrGet_movi2sIscr _ _, rfl, rfl⟩

end Sys2Proof.Machine
end

section
/-!
What a step can do (60_exceptions.md R335 to R344). After its own writes an instruction goes on at its next
address or enters an interrupt; an illegal word is skipped or enters UOE. The statements about every step
are read off these two inversions: an entry happens only with GM on, switches it off, and leaves PC at the
handler and R31 at the return address.
-/

namespace Sys2Proof

open Machine

/-- The four bits of ISCR that only an entry loads (R141): TRAP, UOE, ARE and INC. -/
def Machine.IscrBit.loadedByEntry : IscrBit → Bool
  | .trap | .uoe | .are | .inc => true
  | _ => false

/-! ### The parts of an ending -/

theorem Instr.bitAfter_eq_of_not_isIscrWrite {i : Instr} (h : i.isIscrWrite = false) (s : State)
    (b : IscrBit) : i.bitAfter s b = s.bit b := by
  cases i with
  | intm | intgm | trm | movi2s => cases h
  | _ => rfl

/-- Software writes none of the four bits that entry loads (R315). -/
theorem Instr.bitAfter_eq_of_loadedByEntry (i : Instr) (s : State) {b : IscrBit}
    (hb : b.loadedByEntry = true) : i.bitAfter s b = s.bit b := by
  cases b with
  | trap | uoe | are | inc => cases i <;> rfl
  | _ => cases hb

/-- The own writes that switch GM on. -/
theorem Instr.bitAfter_gm {i : Instr} {s : State} (hoff : s.bit .gm = false)
    (hon : i.bitAfter s .gm = true) :
    (∃ imm : Imm, i = .intgm imm ∧ imm.getLsbD 0 = true) ∨
      (∃ rs2, i = .movi2s rs2 ∧ (s.reg rs2).getLsbD 9 = true) := by
  cases i with
  | intgm imm => exact .inl ⟨imm, rfl, hon⟩
  | movi2s rs2 => exact .inr ⟨rs2, rfl, hon⟩
  | _ => exact absurd (hoff.symm.trans hon) (by decide)

/-- The own writes of the other instructions leave every bit but GM. -/
theorem Instr.bitAfter_eq_of_op {i : Instr} {s : State}
    (h : i.op ≠ .intm ∧ i.op ≠ .trm ∧ i.op ≠ .movi2s) {b : IscrBit} (hb : b ≠ .gm) :
    i.bitAfter s b = s.bit b := by
  obtain ⟨hintm, htrm, hmovi2s⟩ := h
  cases i with
  | intm => exact absurd rfl hintm
  | trm => exact absurd rfl htrm
  | movi2s => exact absurd rfl hmovi2s
  | intgm => exact if_neg hb
  | _ => rfl

/-- An instruction that posts a request is no taken jump, so its entry saves its own address (R341). -/
theorem Instr.ending_of_posts {i : Instr} {s : State} {r : Request} (h : i.posts s = some r) :
    i.takenJump s = false ∧ i.returnAddress s = s.pc := by
  cases i with
  | jr | jsr | beqz | bnez => cases h
  | _ => exact ⟨rfl, rfl⟩

/-- Where an entry goes by the request an instruction posted, INT_ADDR if it posted none or ARE or UOE
(R342). -/
def Machine.State.requestHandler (s : State) : Option Request → Word
  | some (.trap target) => target
  | _ => s.config.intAddr

theorem Machine.State.handler_cause (s : State) (r : Request) :
    s.handler r.cause = s.requestHandler (some r) := by cases r <;> rfl

/-- It rests on the configuration alone. -/
theorem Machine.State.requestHandler_congr {s t : State} (h : t.config = s.config) (r : Option Request) :
    t.requestHandler r = s.requestHandler r := by
  simp only [State.requestHandler, h]

/-- The handler an entry in the instruction's step goes to is that of its request (R342). -/
theorem Instr.entryAddress_eq (i : Instr) (s : State) :
    i.entryAddress s = s.requestHandler (i.posts s) := by
  have hare (overflow : Bool) :
      s.requestHandler (if overflow then some .are else none) = s.config.intAddr := by
    cases overflow <;> rfl
  cases i with
  | add | addi | addu | addui | sub | subi | subu | subui => exact (hare _).symm
  | _ => rfl

/-- The return address rests on the registers and PC alone. -/
theorem Instr.returnAddress_congr (i : Instr) {s t : State} (hgpr : t.gpr = s.gpr) (hpc : t.pc = s.pc) :
    i.returnAddress t = i.returnAddress s := by
  have hreg (q : Reg) : t.reg q = s.reg q := State.reg_congr hgpr q
  cases i <;> simp only [Instr.returnAddress, hreg, hpc]

/-- The handler rests on the registers and the configuration alone. -/
theorem Instr.entryAddress_congr (i : Instr) {s t : State} (hgpr : t.gpr = s.gpr)
    (hconfig : t.config = s.config) : i.entryAddress t = i.entryAddress s := by
  have hreg (q : Reg) : t.reg q = s.reg q := State.reg_congr hgpr q
  cases i <;> simp only [Instr.entryAddress, hreg, hconfig]

end Sys2Proof

namespace Sys2Proof.Machine

/-! ### The conclusion -/

/-- The machine goes on, or it enters an interrupt. -/
theorem State.conclude_cases (s : State) (e : Ending) :
    s.conclude e = { s.tickShadow e.writesIscr with pc := e.next } ∨
      ∃ c, s.servicedCause e = some c ∧ s.conclude e = (s.tickShadow e.writesIscr).enter c e := by
  cases hcause : s.servicedCause e with
  | none => exact .inl (State.conclude_of_none hcause)
  | some c => exact .inr ⟨c, rfl, State.conclude_of_some hcause⟩

/-- An instruction that answers a next state has made its own writes and concluded. -/
theorem exec_next_performs {i : Instr} {s t : State} (h : exec i s = .next t) :
    ∃ w, i.Performs s w ∧ t = w.conclude (i.ending s) := by
  rcases exec_cases i s with ⟨w, hw⟩ | ⟨hrefused, -⟩
  · have hnext := h.symm.trans hw.exec_eq
    injection hnext with ht
    exact ⟨w, hw, ht⟩
  · rw [hrefused] at h; cases h

/-- So it went on or entered. -/
theorem exec_next_cases {i : Instr} {s t : State} (h : exec i s = .next t) :
    ∃ w, i.Performs s w ∧
      (t = { w.tickShadow i.isIscrWrite with pc := i.nextAddress s } ∨
        ∃ c, w.servicedCause (i.ending s) = some c ∧
          t = (w.tickShadow i.isIscrWrite).enter c (i.ending s)) := by
  obtain ⟨w, hw, rfl⟩ := exec_next_performs h
  exact ⟨w, hw, w.conclude_cases (i.ending s)⟩

end Sys2Proof.Machine

namespace Sys2Proof

open Machine

section
variable {i : Instr} {s w : State} (hw : i.Performs s w)
include hw

/-- When an instruction's step enters an interrupt: no ISCR write, no shield, GM on; and the handler it
goes to (R336, R342). -/
theorem Instr.Performs.of_servicedCause {c : Cause} (hc : w.servicedCause (i.ending s) = some c) :
    i.isIscrWrite = false ∧ s.takesInternal ∧ w.handler c = i.entryAddress s := by
  obtain ⟨hplain, ⟨hshadow, hgm⟩, hcause⟩ := State.servicedCause_some hc
  have hplain : i.isIscrWrite = false := hplain
  refine ⟨hplain, ⟨hw.writes.shadow ▸ hshadow, ?_⟩, ?_⟩
  · rwa [hw.bit, Instr.bitAfter_eq_of_not_isIscrWrite hplain] at hgm
  · have hhandler : w.requestHandler (i.posts s) = i.entryAddress s :=
      (State.requestHandler_congr hw.writes.config _).trans (i.entryAddress_eq s).symm
    rcases hcause with ⟨r, hr, rfl⟩ | ⟨hnone, hpending⟩
    · have hr : i.posts s = some r := hr
      rw [← hhandler, hr, State.handler_cause]
    · have hnone : i.posts s = none := hnone
      rw [← hhandler, hnone]
      rcases State.pendingCause_external hpending with rfl | rfl | rfl <;> rfl

/-- The own writes keep the four bits that only an entry loads. -/
theorem Instr.Performs.bit_of_loadedByEntry {b : IscrBit} (hb : b.loadedByEntry = true) :
    w.bit b = s.bit b :=
  (hw.bit b).trans (i.bitAfter_eq_of_loadedByEntry s hb)

/-- The own writes of an instruction that is no ISCR write keep ISCR. -/
theorem Instr.Performs.iscr (hplain : i.isIscrWrite = false) : w.iscr = s.iscr :=
  iscr_ext fun b => (hw.bit b).trans (Instr.bitAfter_eq_of_not_isIscrWrite hplain s b)

end

end Sys2Proof

namespace Sys2Proof.Machine

/-! ### An illegal word -/

/-- An illegal word is skipped where its request is dropped (R338, D13). -/
theorem State.illegalWord_of_dropsInternal {s : State} (h : s.dropsInternal) :
    s.illegalWord = { s.tickShadow false with pc := s.pc + 1 } :=
  State.conclude_of_none (State.servicedCause_dropped h _)

/-- Else it enters UOE, with its own address saved and INC on (R326, R341). -/
theorem State.illegalWord_of_takesInternal {s : State} (h : s.takesInternal) :
    ∃ e : Ending, e.saved = s.pc ∧ e.jumped = false ∧
      s.illegalWord = (s.tickShadow false).enter .uoe e :=
  ⟨⟨s.pc + 1, s.pc, false, some .uoe, false⟩, rfl, rfl,
    State.conclude_of_some (State.servicedCause_internal (r := .uoe) h rfl rfl)⟩

theorem State.dropsInternal_or_takesInternal (s : State) : s.dropsInternal ∨ s.takesInternal := by
  cases hgm : s.bit .gm with
  | false => exact .inl (.inr hgm)
  | true =>
    rcases Nat.eq_zero_or_pos s.shadow with hshadow | hshadow
    · exact .inr ⟨hshadow, hgm⟩
    · exact .inl (.inl hshadow)

/-! ### The step -/

@[simp] theorem State.bit_takeInput (s : State) (b : IscrBit) : s.takeInput.bit b = s.bit b :=
  State.bit_congr s.takeInput_iscr b

/-- The boundary sets NMI and MI only (R331). -/
theorem State.bit_atBoundary (s : State) {b : IscrBit} (hnmi : b ≠ .nmi) (hmi : b ≠ .mi) :
    s.atBoundary.bit b = s.bit b := by
  rw [State.atBoundary, State.bit_accept, decide_eq_false hnmi, decide_eq_false hmi]
  simp

/-- A step that is no reset and answers a next state ran the instruction at PC or met an illegal word
there, in the boundary state. -/
theorem step_cases {s t : State} (hreset : s.pendingReset = none) (h : step s = .next t) :
    ∃ w, s.imem.word? s.pc = some w ∧
      ((∃ i, decodeWord s.config.opcodes s.config.unusedFields w = .instr i ∧
          exec i s.atBoundary = .next t) ∨
        (decodeWord s.config.opcodes s.config.unusedFields w = .illegal ∧
          t = s.atBoundary.illegalWord)) := by
  rw [step_of_no_reset hreset] at h
  simpa [State.fetch, State.decode] using State.run_cases h

/-! ### The obligations about every step -/

/-- An entry in the step of an instruction, as the statements about entries name it. -/
theorem entered_of_servicedCause {i : Instr} {s w t : State} {c : Cause} (hw : i.Performs s w)
    (hc : w.servicedCause (i.ending s) = some c)
    (ht : t = (w.tickShadow i.isIscrWrite).enter c (i.ending s)) :
    i.isIscrWrite = false ∧ s.bit .gm = true ∧ t.bit .gm = false ∧ t.pc = i.entryAddress s ∧
      t.reg 31 = i.returnAddress s := by
  obtain ⟨hplain, ⟨-, hgm⟩, hhandler⟩ := hw.of_servicedCause hc
  refine ⟨hplain, hgm, ?_, ?_, ?_⟩
  · rw [ht]; exact (State.enter_iscrEntered _ c _).gm
  · rw [ht]; exact hhandler
  · rw [ht, State.reg_enter]; rfl

/-- An instruction that changes one of the four bits that entry loads has entered an interrupt. -/
theorem entered_of_bit_ne {i : Instr} {s t : State} (h : exec i s = .next t) {b : IscrBit}
    (hb : b.loadedByEntry = true) (hne : t.bit b ≠ s.bit b) :
    i.isIscrWrite = false ∧ s.bit .gm = true ∧ t.bit .gm = false ∧ t.pc = i.entryAddress s ∧
      t.reg 31 = i.returnAddress s := by
  obtain ⟨w, hw, ht | ⟨c, hc, ht⟩⟩ := exec_next_cases h
  · have hkept : t.bit b = w.bit b := by rw [ht]; rfl
    exact absurd (hkept.trans (hw.bit_of_loadedByEntry hb)) hne
  · exact entered_of_servicedCause hw hc ht

/-- Settles O47: of the two ways a step can end, going on keeps the four bits. -/
theorem causeBitsChangeOnlyAtEntry : Obligations.CauseBitsChangeOnlyAtEntry := by
  unfold Obligations.CauseBitsChangeOnlyAtEntry
  intro s t hreset hstep hchanged
  have hbit : ∃ b : IscrBit, b.loadedByEntry = true ∧ t.bit b ≠ s.atBoundary.bit b := by
    rcases hchanged with h | h | h | h <;>
      exact ⟨_, rfl, fun heq => h (heq.trans (s.bit_atBoundary (by decide) (by decide)))⟩
  obtain ⟨b, hb, hne⟩ := hbit
  have hgm : s.atBoundary.bit .gm = s.bit .gm := s.bit_atBoundary (by decide) (by decide)
  obtain ⟨w, hw, ⟨i, hi, hexec⟩ | ⟨hillegal, rfl⟩⟩ := step_cases hreset hstep
  · obtain ⟨hplain, hon, hoff, hpc, hlink⟩ := entered_of_bit_ne hexec hb hne
    rw [i.entryAddress_congr s.atBoundary_gpr s.atBoundary_config] at hpc
    rw [i.returnAddress_congr s.atBoundary_gpr s.atBoundary_pc] at hlink
    exact ⟨hgm ▸ hon, hoff, w, hw, .inr ⟨i, hi, hplain, hpc, hlink⟩⟩
  · rcases s.atBoundary.dropsInternal_or_takesInternal with hdrops | htakes
    · rw [State.illegalWord_of_dropsInternal hdrops] at hne
      exact absurd rfl hne
    · obtain ⟨e, hsaved, -, henter⟩ := State.illegalWord_of_takesInternal htakes
      rw [henter]
      refine ⟨hgm ▸ htakes.2, (State.enter_iscrEntered _ .uoe e).gm, w, hw, .inl ⟨hillegal, ?pc, ?link⟩⟩
      case pc => exact congrArg Config.intAddr s.atBoundary_config
      case link => exact (State.reg_enter _ _ e 31#5).trans (hsaved.trans s.atBoundary_pc)

/-- Settles O48: an entry switches GM off, so it is the own writes of an instruction that switch it on. -/
theorem gmIsSwitchedOnOnlyByIntgmAndMovi2s : Obligations.GmIsSwitchedOnOnlyByIntgmAndMovi2s := by
  unfold Obligations.GmIsSwitchedOnOnlyByIntgmAndMovi2s
  intro s t hreset hstep hoff hon
  have hoff' : s.atBoundary.bit .gm = false := (s.bit_atBoundary (by decide) (by decide)).trans hoff
  have hreg (q : Reg) : s.atBoundary.reg q = s.reg q := State.reg_congr s.atBoundary_gpr q
  obtain ⟨w, hw, ⟨i, hi, hexec⟩ | ⟨hillegal, rfl⟩⟩ := step_cases hreset hstep
  · refine ⟨w, i, hw, hi, ?_⟩
    obtain ⟨v, hv, ht | ⟨c, hc, ht⟩⟩ := exec_next_cases hexec
    · have hwritten : i.bitAfter s.atBoundary .gm = true := by
        rw [← hv.bit, ← hon, ht]; rfl
      simpa only [hreg] using Instr.bitAfter_gm hoff' hwritten
    · obtain ⟨-, hgm, -⟩ := entered_of_servicedCause hv hc ht
      exact absurd (hoff'.symm.trans hgm) (by decide)
  · rw [State.illegalWord_of_dropsInternal (.inr hoff')] at hon
    exact absurd (hoff'.symm.trans hon) (by decide)

/-- The five bits that only software clears: INI, NMI, MI, MASK and TRM (R141, R344). -/
def IscrBit.keptByEntry : IscrBit → Bool
  | .ini | .nmi | .mi | .mask | .trm => true
  | _ => false

/-- An entry leaves them (R344, D19). -/
theorem State.bit_enter_of_keptByEntry (s : State) (c : Cause) (e : Ending) {b : IscrBit}
    (hb : b.keptByEntry = true) : (s.enter c e).bit b = s.bit b := by
  have h := s.enter_iscrEntered c e
  cases b with
  | ini => exact h.ini
  | nmi => exact h.nmi
  | mi => exact h.mi
  | mask => exact h.mask
  | trm => exact h.trm
  | _ => cases hb

/-- Whatever it is attributed to, the conclusion of an instruction leaves them. -/
theorem State.bit_conclude_of_keptByEntry (s : State) (e : Ending) {b : IscrBit}
    (hb : b.keptByEntry = true) : (s.conclude e).bit b = s.bit b := by
  rcases s.conclude_cases e with h | ⟨c, -, h⟩
  · rw [h]; rfl
  · rw [h]; exact State.bit_enter_of_keptByEntry _ c e hb

/-- The boundary clears no bit. -/
theorem State.bit_atBoundary_of_bit {s : State} {b : IscrBit} (h : s.bit b = true) :
    s.atBoundary.bit b = true := by
  rw [State.atBoundary, State.bit_accept, s.bit_takeInput, h, Bool.true_or]

/-- Settles O49: neither the own writes nor the conclusion touch the five bits, and the boundary only
switches NMI and MI on. -/
theorem onlySoftwareClearsRequestsAndMasks : Obligations.OnlySoftwareClearsRequestsAndMasks := by
  unfold Obligations.OnlySoftwareClearsRequestsAndMasks
  intro s t hreset hstep hother
  have hkept : ∀ b : IscrBit, b.keptByEntry = true → t.bit b = s.atBoundary.bit b := by
    intro b hb
    obtain ⟨w, hw, ⟨i, hi, hexec⟩ | ⟨-, rfl⟩⟩ := step_cases hreset hstep
    · obtain ⟨v, hv, ht⟩ := exec_next_performs hexec
      have hgm : b ≠ .gm := by rintro rfl; cases hb
      rw [ht, State.bit_conclude_of_keptByEntry v _ hb, hv.bit,
        Instr.bitAfter_eq_of_op (hother w i hw hi) hgm]
    · exact State.bit_conclude_of_keptByEntry _ _ hb
  refine ⟨?ini, ?mask, ?trm, ?nmi, ?mi⟩
  case ini => exact (hkept .ini rfl).trans (s.bit_atBoundary (by decide) (by decide))
  case mask => exact (hkept .mask rfl).trans (s.bit_atBoundary (by decide) (by decide))
  case trm => exact (hkept .trm rfl).trans (s.bit_atBoundary (by decide) (by decide))
  case nmi => exact fun h => (hkept .nmi rfl).trans (State.bit_atBoundary_of_bit h)
  case mi => exact fun h => (hkept .mi rfl).trans (State.bit_atBoundary_of_bit h)

end Sys2Proof.Machine
end

section
/-!
The invariant of the machine (60_exceptions.md R323, R341, R343; 20_memory.md R151). Each part of it is kept
by each part of a step: the boundary drives device words, the own writes reach data memory by whole words,
and an entry in one-hot mode names one cause, with INC on when that cause is internal.
-/

namespace Sys2Proof.Machine

/-! ### The parts of the invariant -/

theorem State.inv_iff {s : State} :
    s.inv = true ↔ s.imem.wf = true ∧ s.dmem.wf = true ∧ s.devices.wf = true ∧
      s.config.wellFormed = true ∧ s.shadow ≤ s.config.iscrWriteShadow ∧
      (s.config.causeBits = .setOnly ∨ Iscr.causeConsistent s.iscr = true) := by
  simp [State.inv, and_assoc]

/-- A value with the same TRAP, UOE, ARE and INC is as consistent. -/
theorem causeConsistent_of_bit_eq {s t : State}
    (h : ∀ b : IscrBit, b.loadedByEntry = true → t.bit b = s.bit b)
    (hs : Iscr.causeConsistent s.iscr = true) : Iscr.causeConsistent t.iscr = true := by
  have htrap : t.iscr.getLsbD 7 = s.iscr.getLsbD 7 := h .trap rfl
  have huoe : t.iscr.getLsbD 6 = s.iscr.getLsbD 6 := h .uoe rfl
  have hare : t.iscr.getLsbD 5 = s.iscr.getLsbD 5 := h .are rfl
  have hinc : t.iscr.getLsbD 0 = s.iscr.getLsbD 0 := h .inc rfl
  rw [Iscr.causeConsistent] at hs ⊢
  rwa [htrap, huoe, hare, hinc]

/-- In one-hot mode an entry names its own cause alone; only an external cause may follow a taken jump,
after which INC is off (R341, R343). -/
theorem causeConsistent_enter {s : State} (hmode : s.config.causeBits = .oneHot) {c : Cause} {e : Ending}
    (hjump : e.jumped = true → c = .nmi ∨ c = .mi ∨ c = .trm) :
    Iscr.causeConsistent (s.enter c e).iscr = true := by
  have h := s.enter_iscrEntered c e
  have htrap : (s.enter c e).iscr.getLsbD 7 = c.isTrap := h.trap.trans (by simp [hmode])
  have huoe : (s.enter c e).iscr.getLsbD 6 = decide (c = .uoe) := h.uoe.trans (by simp [hmode])
  have hare : (s.enter c e).iscr.getLsbD 5 = decide (c = .are) := h.are.trans (by simp [hmode])
  have hinc : (s.enter c e).iscr.getLsbD 0 = !e.jumped := h.inc
  rw [Iscr.causeConsistent, htrap, huoe, hare, hinc]
  cases hj : e.jumped with
  | false => cases c <;> rfl
  | true => rcases hjump hj with rfl | rfl | rfl <;> rfl

/-- The conclusion of an instruction leaves ISCR consistent, if a taken jump posts no request. -/
theorem causeConsistent_conclude {s : State} {e : Ending}
    (hs : s.config.causeBits = .setOnly ∨ Iscr.causeConsistent s.iscr = true)
    (hjump : e.jumped = true → e.request = none) :
    s.config.causeBits = .setOnly ∨ Iscr.causeConsistent (s.conclude e).iscr = true := by
  rcases hs with hmode | hs
  · exact .inl hmode
  rcases s.conclude_cases e with h | ⟨c, hc, h⟩
  · rw [h]; exact .inr hs
  cases hmode : s.config.causeBits with
  | setOnly => exact .inl rfl
  | oneHot =>
    rw [h]
    refine .inr (causeConsistent_enter hmode fun hj => ?_)
    obtain ⟨-, -, ⟨r, hr, -⟩ | ⟨-, hpending⟩⟩ := State.servicedCause_some hc
    · rw [hjump hj] at hr; cases hr
    · exact State.pendingCause_external hpending

/-! ### The parts of a step -/

/-- The conclusion of an instruction keeps the invariant. -/
theorem State.inv_conclude {s : State} (h : s.inv = true) {e : Ending}
    (hjump : e.jumped = true → e.request = none) : (s.conclude e).inv = true := by
  obtain ⟨himem, hdmem, hdevices, hconfig, hshadow, hiscr⟩ := State.inv_iff.mp h
  refine State.inv_iff.mpr ⟨by simpa, by simpa, by simpa, by simpa, ?shadow, ?iscr⟩
  case shadow =>
    rw [State.conclude_shadow, State.conclude_config]
    split
    · exact le_rfl
    · exact (Nat.sub_le _ _).trans hshadow
  case iscr => simpa using causeConsistent_conclude hiscr hjump

/-- The own writes of an instruction keep the invariant. -/
theorem inv_of_performs {i : Instr} {s w : State} (hw : i.Performs s w) (h : s.inv = true) :
    w.inv = true := by
  obtain ⟨himem, hdmem, hdevices, hconfig, hshadow, hiscr⟩ := State.inv_iff.mp h
  have hwrites := hw.writes
  rw [State.inv_iff, hwrites.imem, hwrites.devices, hwrites.config, hwrites.shadow]
  exact ⟨himem, hwrites.dmem_wf hdmem, hdevices, hconfig, hshadow,
    hiscr.imp_right (causeConsistent_of_bit_eq fun _ hb => hw.bit_of_loadedByEntry hb)⟩

/-- An instruction keeps the invariant (R335 items 3 to 5). -/
theorem exec_inv {i : Instr} {s t : State} (hexec : exec i s = .next t) (h : s.inv = true) :
    t.inv = true := by
  obtain ⟨w, hw, rfl⟩ := exec_next_performs hexec
  refine State.inv_conclude (inv_of_performs hw h) fun hjumped => ?_
  have hjumped : i.takenJump s = true := hjumped
  cases hposts : i.posts s with
  | none => exact hposts
  | some r =>
    rw [(Instr.ending_of_posts hposts).1] at hjumped
    cases hjumped

/-- The devices after the environment's input are those it loads its words into. -/
theorem State.takeInput_devices_wf {s : State} (h : s.devices.wf = true) :
    s.takeInput.devices.wf = true := by
  unfold State.takeInput
  split
  · exact h
  · exact Memory.wf_load _ h

/-- The boundary keeps the invariant. -/
theorem State.inv_atBoundary {s : State} (h : s.inv = true) : s.atBoundary.inv = true := by
  obtain ⟨himem, hdmem, hdevices, hconfig, hshadow, hiscr⟩ := State.inv_iff.mp h
  rw [State.inv_iff, s.atBoundary_imem, s.atBoundary_dmem, s.atBoundary_config, s.atBoundary_shadow]
  refine ⟨himem, hdmem, State.takeInput_devices_wf hdevices, hconfig, hshadow, hiscr.imp_right ?_⟩
  refine causeConsistent_of_bit_eq fun b hb => s.bit_atBoundary ?_ ?_
  · rintro rfl; cases hb
  · rintro rfl; cases hb

/-- A reset enters a state with the invariant: the loads are canonical and RESET_ISCR names no two
causes (R371). -/
theorem State.inv_resetEvent {s : State} (h : s.inv = true) (l : ResetLoad) :
    (s.takeInput.resetEvent l).inv = true := by
  obtain ⟨-, -, hdevices, hconfig, -, -⟩ := State.inv_iff.mp h
  have hreset : Iscr.causeConsistent s.config.resetIscr = true := by
    simp only [Config.wellFormed, Bool.and_eq_true] at hconfig
    exact hconfig.2
  refine State.inv_iff.mpr ⟨Memory.wf_load _ rfl, Memory.wf_load _ rfl,
    State.takeInput_devices_wf hdevices, ?_, Nat.zero_le _, .inr ?_⟩
  · simpa using hconfig
  · simpa using hreset

/-! ### The obligations -/

/-- Settles O9: by evaluation. -/
theorem resetSatisfiesTheInvariant : Obligations.ResetSatisfiesTheInvariant := by
  unfold Obligations.ResetSatisfiesTheInvariant
  decide +kernel

/-- Settles O10: a step is a reset, or the boundary and then an instruction or an illegal word. -/
theorem everyStepKeepsTheInvariant : Obligations.EveryStepKeepsTheInvariant := by
  unfold Obligations.EveryStepKeepsTheInvariant
  intro s t hinv hstep
  cases hreset : s.pendingReset with
  | some l =>
    simp only [step, hreset] at hstep
    cases hstep
    exact State.inv_resetEvent hinv l
  | none =>
    obtain ⟨_, -, ⟨i, -, hexec⟩ | ⟨-, rfl⟩⟩ := step_cases hreset hstep
    · exact exec_inv hexec (State.inv_atBoundary hinv)
    · exact State.inv_conclude (State.inv_atBoundary hinv) (by intro h; cases h)

/-- Settles O11: neither the boundary, nor the own writes, nor the conclusion touch either. -/
theorem stepKeepsImageAndConfiguration : Obligations.StepKeepsImageAndConfiguration := by
  unfold Obligations.StepKeepsImageAndConfiguration
  intro s t hreset hstep
  have hkept : t.imem = s.imem ∧ t.config = s.config := by
    obtain ⟨_, -, ⟨i, -, hexec⟩ | ⟨-, rfl⟩⟩ := step_cases hreset hstep
    · obtain ⟨w, hw, rfl⟩ := exec_next_performs hexec
      simp [hw.writes.imem, hw.writes.config]
    · simp [State.illegalWord]
  obtain ⟨himem, hconfig⟩ := hkept
  exact ⟨fun key => by rw [himem], hconfig⟩

end Sys2Proof.Machine
end

section
/-!
What holds of every instruction (20_memory.md R157; 60_exceptions.md R340 to R345): none faults, each changes
at most its rd, R31 by an entry, data memory by `sw` and PC to the next address or the handler; and an entry
is precise, since the own writes are the same whether or not it follows.
-/

namespace Sys2Proof

open Machine

/-- Outside control transfer the next address is the one after the instruction (R127). -/
theorem Instr.nextAddress_eq_of_op {i : Instr} {s : State}
    (h : i.op ∉ [Op.beqz, .bnez, .jr, .jsr, .trap]) : i.nextAddress s = s.pc + 1 := by
  cases i with
  | beqz | bnez | jr | jsr | trap => exact absurd (by simp [Instr.op]) h
  | _ => rfl

/-- Only `trap` has a handler of its own (R342). -/
theorem Instr.entryAddress_eq_of_op {i : Instr} {s : State}
    (h : i.op ∉ [Op.beqz, .bnez, .jr, .jsr, .trap]) : i.entryAddress s = s.config.intAddr := by
  cases i with
  | trap => exact absurd (by simp [Instr.op]) h
  | _ => rfl

/-- What R341 notes under its table: R31 + INC is where the program goes on, but for the bias of a taken
branch, which R31 does not carry (R290). -/
theorem Instr.returnAddress_add_inc {i : Instr} {s : State} (hposts : i.posts s = none)
    (hbias : s.config.pcReadBias = 0 ∨ (i.op ≠ .beqz ∧ i.op ≠ .bnez) ∨ i.takenJump s = false) :
    i.returnAddress s + (if (!i.takenJump s) = true then 1 else 0) = i.nextAddress s := by
  have htarget (imm : Imm) (h : s.config.pcReadBias = 0) : s.branchTarget imm = s.pc + sext32 imm := by
    simp [State.branchTarget, State.readPc, h]
  cases i with
  | trap => cases hposts
  | jr | jsr => exact BitVec.add_zero _
  | beqz rs1 imm =>
    by_cases hzero : s.reg rs1 = 0#32
    · have hnobias : s.config.pcReadBias = 0 := by simpa [Instr.op, Instr.takenJump, hzero] using hbias
      simp [Instr.returnAddress, Instr.takenJump, Instr.nextAddress, hzero, htarget imm hnobias, sext32]
    · simp [Instr.returnAddress, Instr.takenJump, Instr.nextAddress, hzero]
  | bnez rs1 imm =>
    by_cases hzero : s.reg rs1 = 0#32
    · simp [Instr.returnAddress, Instr.takenJump, Instr.nextAddress, hzero]
    · have hnobias : s.config.pcReadBias = 0 := by simpa [Instr.op, Instr.takenJump, hzero] using hbias
      simp [Instr.returnAddress, Instr.takenJump, Instr.nextAddress, hzero, htarget imm hnobias, sext32]
  | _ => rfl

end Sys2Proof

namespace Sys2Proof.Machine

/-! ### Frames -/

/-- Settles O46: `exec` answers a next state or the one refusal. -/
theorem noInstructionFaults : Obligations.NoInstructionFaults := by
  unfold Obligations.NoInstructionFaults
  intro i s
  rcases exec_cases i s with ⟨w, hw⟩ | ⟨hrefused, -, hunified, hsw⟩
  · rw [hw.exec_eq]
    exact ⟨fun _ => nofun, fun _ => nofun, fun _ => ⟨_, rfl⟩⟩
  · rw [hrefused]
    refine ⟨fun _ => nofun, fun r h => ?_, fun htwo => ?_⟩
    · cases h; exact ⟨rfl, hunified, hsw⟩
    · rw [hunified] at htwo; cases htwo

/-- Settles O50: the own writes of another instruction leave data memory, and so does the conclusion. -/
theorem dataMemoryChangesOnlyBySw : Obligations.DataMemoryChangesOnlyBySw := by
  unfold Obligations.DataMemoryChangesOnlyBySw
  intro i s t hexec hop key
  obtain ⟨w, hw, rfl⟩ := exec_next_performs hexec
  rw [State.conclude_dmem, hw.writes.dmem hop]

/-- Settles O51: the own writes reach rd, the conclusion R31, and that only by an entry. -/
theorem registersChangeOnlyAsDestinationOrR31 : Obligations.RegistersChangeOnlyAsDestinationOrR31 := by
  unfold Obligations.RegistersChangeOnlyAsDestinationOrR31
  intro i s t hexec
  constructor
  · intro q hrd hlink
    obtain ⟨w, hw, rfl⟩ := exec_next_performs hexec
    rw [State.reg_conclude _ _ hlink, hw.writes.reg hrd]
  · intro hrd hchanged
    obtain ⟨w, hw, ht | ⟨c, hc, ht⟩⟩ := exec_next_cases hexec
    · have hkept : t.reg 31 = w.reg 31 := by rw [ht]; rfl
      exact absurd (hkept.trans (hw.writes.reg (Ne.symm hrd))) hchanged
    · exact entered_of_servicedCause hw hc ht

/-- Settles O52: the machine goes on at the next address or is in the handler. -/
theorem pcAdvancesOrIsTheHandler : Obligations.PcAdvancesOrIsTheHandler := by
  unfold Obligations.PcAdvancesOrIsTheHandler
  intro i s t hexec hop
  obtain ⟨w, hw, ht | ⟨c, hc, ht⟩⟩ := exec_next_cases hexec
  · rw [ht]; exact .inl (Instr.nextAddress_eq_of_op hop)
  · obtain ⟨-, hon, hoff, hpc, -⟩ := entered_of_servicedCause hw hc ht
    exact .inr ⟨hpc.trans (Instr.entryAddress_eq_of_op hop), hon, hoff⟩

/-! ### Precision -/

/-- An entry seen from a state with the same ISCR and configuration. -/
theorem State.IscrEntered.of_eq {s w t : State} {inc trap uoe are : Bool}
    (h : w.IscrEntered t inc trap uoe are) (hiscr : w.iscr = s.iscr) (hconfig : w.config = s.config) :
    s.IscrEntered t inc trap uoe are := by
  obtain ⟨hgm, hinc, htrap, huoe, hare, hini, hnmi, hmi, hmask, htrm⟩ := h
  have hbit (b : IscrBit) : w.bit b = s.bit b := State.bit_congr hiscr b
  simp only [hbit, hconfig] at htrap huoe hare hini hnmi hmi hmask htrm
  exact ⟨hgm, hinc, htrap, huoe, hare, hini, hnmi, hmi, hmask, htrm⟩

/-- A serviceable external or trace request is some cause (R336). -/
theorem State.exists_pendingCause {s : State}
    (h : s.bit .nmi = true ∨ (s.bit .mi = true ∧ s.bit .mask = true) ∨ s.bit .trm = true) :
    ∃ c, s.pendingCause = some c := by
  unfold State.pendingCause
  split
  · exact ⟨_, rfl⟩
  split
  · exact ⟨_, rfl⟩
  split
  · exact ⟨_, rfl⟩
  · simp_all

/-- What an entry in the step of an instruction leaves in PC, R31 and ISCR (R340 to R343). -/
theorem enters_of_servicedCause {i : Instr} {s w : State} {c : Cause} (hw : i.Performs s w)
    (hc : w.servicedCause (i.ending s) = some c) :
    (w.conclude (i.ending s)).pc = i.entryAddress s ∧
      (w.conclude (i.ending s)).reg 31 = i.returnAddress s ∧
      s.IscrEntered (w.conclude (i.ending s)) (!i.takenJump s) c.isTrap (decide (c = .uoe))
        (decide (c = .are)) := by
  have ht := State.conclude_of_some hc
  obtain ⟨hplain, -, -, hpc, hlink⟩ := entered_of_servicedCause hw hc ht
  refine ⟨hpc, hlink, ?_⟩
  rw [ht]
  exact (State.enter_iscrEntered _ c _).of_eq (hw.iscr hplain) hw.writes.config

/-- The entry of a posted request saves the instruction's own address, with INC on (R341). -/
theorem enters_of_posts {i : Instr} {s w : State} {r : Request} (hw : i.Performs s w)
    (hposts : i.posts s = some r) (hc : w.servicedCause (i.ending s) = some r.cause) :
    (w.conclude (i.ending s)).pc = s.requestHandler (some r) ∧
      (w.conclude (i.ending s)).reg 31 = s.pc ∧
      s.IscrEntered (w.conclude (i.ending s)) true r.cause.isTrap (decide (r.cause = .uoe))
        (decide (r.cause = .are)) := by
  obtain ⟨hpc, hlink, hiscr⟩ := enters_of_servicedCause hw hc
  obtain ⟨hjump, hown⟩ := Instr.ending_of_posts hposts
  rw [Instr.entryAddress_eq, hposts] at hpc
  rw [hown] at hlink
  rw [hjump] at hiscr
  exact ⟨hpc, hlink, hiscr⟩

/-- The entry of an external or trace request names no internal cause (R341, R343). -/
theorem enters_of_pending {i : Instr} {s w : State} {c : Cause} (hw : i.Performs s w)
    (hposts : i.posts s = none) (hpending : w.pendingCause = some c)
    (hc : w.servicedCause (i.ending s) = some c) :
    (w.conclude (i.ending s)).pc = s.config.intAddr ∧
      (w.conclude (i.ending s)).reg 31 = i.returnAddress s ∧
      s.IscrEntered (w.conclude (i.ending s)) (!i.takenJump s) false false false := by
  obtain ⟨hpc, hlink, hiscr⟩ := enters_of_servicedCause hw hc
  rw [Instr.entryAddress_eq, hposts] at hpc
  refine ⟨hpc, hlink, ?_⟩
  rcases State.pendingCause_external hpending with rfl | rfl | rfl <;> exact hiscr

/-- Settles O40: under the shield the machine goes on after the own writes; without it the same writes are
followed by the entry of the highest request, or by none. -/
theorem interruptsArePrecise : Obligations.InterruptsArePrecise := by
  unfold Obligations.InterruptsArePrecise
  intro i s u hplain hshadow hgm hshielded
  obtain ⟨w, hw⟩ : ∃ w, i.Performs s w := by
    refine (exec_cases i s).resolve_right fun ⟨_, hrefused, _⟩ => ?_
    rw [hrefused] at hshielded; cases hshielded
  have hu : u = { w.shielded.tickShadow i.isIscrWrite with pc := i.nextAddress s } := by
    have hnext := hshielded.symm.trans hw.exec_shielded
    injection hnext with hu
    exact hu.trans (State.conclude_of_none (State.servicedCause_dropped (.inl Nat.one_pos) _))
  have hbit (b : IscrBit) : w.bit b = s.bit b := State.bit_congr (hw.iscr hplain) b
  have hwshadow : w.shadow = 0 := hw.writes.shadow.trans hshadow
  have htakes : w.takesInternal := ⟨hwshadow, (hbit .gm).trans hgm⟩
  have hinternal (r : Request) (hr : i.posts s = some r) :
      w.servicedCause (i.ending s) = some r.cause := State.servicedCause_internal htakes hplain hr
  subst hu
  refine ⟨_, hw.exec_eq, ?data, ?outside, ?shadow, ?regs, ?trap, ?are, ?none⟩
  case data => intro key; simp
  case outside => constructor <;> simp
  case shadow => simp [Instr.ending, hplain, hwshadow]
  case regs => exact fun q hq => w.reg_conclude _ hq
  case trap => exact fun a hposts => enters_of_posts hw hposts (hinternal _ hposts)
  case are => exact fun hposts => enters_of_posts hw hposts (hinternal _ hposts)
  case none =>
    intro hposts
    constructor
    · intro hpending
      simp only [← hbit] at hpending
      obtain ⟨c, hc⟩ := State.exists_pendingCause hpending
      have hserviced := (State.servicedCause_pending (e := i.ending s) htakes hplain hposts).trans hc
      obtain ⟨hpc, hlink, hiscr⟩ := enters_of_pending hw hposts hc hserviced
      refine ⟨hpc, hiscr, hlink, fun hbias => ?_⟩
      rw [hlink, hiscr.inc]
      exact Instr.returnAddress_add_inc hposts hbias
    · intro hnmi hmi htrm
      simp only [← hbit] at hnmi hmi htrm
      rw [State.conclude_of_none (State.servicedCause_quiet (.inr (.inr ⟨hnmi, hmi, htrm⟩)) hposts)]
      exact ⟨rfl, rfl, rfl⟩

end Sys2Proof.Machine
end

section
/-!
The arithmetic instructions (41_arithmetic.md R220 to R230). The model's overflow tests are the
library's, which gives both the bit-level tests and the exact results. The eight instructions share one
operation, whose two outcomes are settled once: without overflow it writes rd alone; with overflow it
writes rd as ARE_WRITEBACK says and goes on or enters ARE.
-/

namespace Sys2Proof.Machine

/-! ### The overflow tests -/

theorem addOverflow_eq_saddOverflow (a b : Word) : addOverflow a b = a.saddOverflow b := by
  rw [Bool.eq_iff_iff]
  simp only [addOverflow, outsideSigned, BitVec.saddOverflow, Bool.or_eq_true, decide_eq_true_eq]
  omega

theorem subOverflow_eq_ssubOverflow (a b : Word) : subOverflow a b = a.ssubOverflow b := by
  rw [Bool.eq_iff_iff]
  simp only [subOverflow, outsideSigned, BitVec.ssubOverflow, Bool.or_eq_true, decide_eq_true_eq]
  omega

theorem adduOverflow_eq_uaddOverflow (a b : Word) : adduOverflow a b = a.uaddOverflow b := by
  rw [Bool.eq_iff_iff]
  simp only [adduOverflow, BitVec.uaddOverflow, decide_eq_true_eq]
  omega

/-- A borrow shows in the 33rd bit of the difference. -/
theorem getLsbD_sub_setWidth_iff (a b : Word) :
    (a.setWidth 33 - b.setWidth 33).getLsbD 32 = true ↔ a.toNat < b.toNat := by
  have ha := a.isLt
  have hb := b.isLt
  have hlast : (a.setWidth 33 - b.setWidth 33).getLsbD 32 = (a.setWidth 33 - b.setWidth 33).msb := rfl
  rw [hlast, BitVec.msb_eq_decide, decide_eq_true_eq, BitVec.toNat_sub, BitVec.toNat_setWidth,
    BitVec.toNat_setWidth]
  omega

/-- Settles O26: the library's tests in terms of the most significant bits. -/
theorem overflowTestsAgreeWithTheBits : Obligations.OverflowTestsAgreeWithTheBits := by
  unfold Obligations.OverflowTestsAgreeWithTheBits
  intro a b
  have hmsb (x : Word) : x.getLsbD 31 = x.msb := rfl
  refine ⟨?add, ?sub, ?addu, ?subu⟩
  case add =>
    rw [addOverflow_eq_saddOverflow, BitVec.saddOverflow_eq, hmsb, hmsb, hmsb]
    simp
  case sub =>
    rw [subOverflow_eq_ssubOverflow, BitVec.ssubOverflow_eq, hmsb, hmsb, hmsb]
    cases a.msb <;> cases b.msb <;> simp
  case addu =>
    rw [adduOverflow_eq_uaddOverflow, BitVec.uaddOverflow_eq]
    rfl
  case subu =>
    rw [getLsbD_sub_setWidth_iff, subuOverflow, decide_eq_true_eq]

/-! ### The arms, with the immediate widened as the statements write it -/

section
variable (rd rs1 rs2 : Reg) (imm : Imm) (s : State)

theorem exec_add : exec (.add rd rs1 rs2) s =
    s.arith rd (s.reg rs1 + s.reg rs2) (addOverflow (s.reg rs1) (s.reg rs2)) := rfl

theorem exec_addi : exec (.addi rd rs1 imm) s =
    s.arith rd (s.reg rs1 + imm.signExtend 32) (addOverflow (s.reg rs1) (imm.signExtend 32)) := rfl

theorem exec_addu : exec (.addu rd rs1 rs2) s =
    s.arith rd (s.reg rs1 + s.reg rs2) (adduOverflow (s.reg rs1) (s.reg rs2)) := rfl

theorem exec_addui : exec (.addui rd rs1 imm) s =
    s.arith rd (s.reg rs1 + imm.setWidth 32) (adduOverflow (s.reg rs1) (imm.setWidth 32)) := rfl

theorem exec_sub : exec (.sub rd rs1 rs2) s =
    s.arith rd (s.reg rs1 - s.reg rs2) (subOverflow (s.reg rs1) (s.reg rs2)) := rfl

theorem exec_subi : exec (.subi rd rs1 imm) s =
    s.arith rd (s.reg rs1 - imm.signExtend 32) (subOverflow (s.reg rs1) (imm.signExtend 32)) := rfl

theorem exec_subu : exec (.subu rd rs1 rs2) s =
    s.arith rd (s.reg rs1 - s.reg rs2) (subuOverflow (s.reg rs1) (s.reg rs2)) := rfl

theorem exec_subui : exec (.subui rd rs1 imm) s =
    s.arith rd (s.reg rs1 - imm.setWidth 32) (subuOverflow (s.reg rs1) (imm.setWidth 32)) := rfl

end

theorem toInt_signExtend_imm (imm : Imm) : (imm.signExtend 32).toInt = imm.toInt := toInt_sext32 imm

theorem toNat_setWidth_imm (imm : Imm) : (imm.setWidth 32).toNat = imm.toNat :=
  BitVec.toNat_setWidth_of_le (by decide)

/-! ### Without overflow -/

section
variable {i : Instr} {s : State} {rd : Reg} {a b : Word} (hquiet : s.quiet)
include hquiet

/-- Without overflow the shared operation is a `writeReg`. -/
theorem writesOnly_of_exec_eq_arith {r : Word} {overflow : Bool} (hexec : exec i s = s.arith rd r overflow)
    (hfits : ¬overflow = true) : WritesOnly i s rd r := by
  rw [Bool.eq_false_of_not_eq_true hfits] at hexec
  exact writesOnly_of_exec_eq_writeReg hexec hquiet

/-- A sum in the signed range is exact and written (R220, R221). -/
theorem writes_exact_sum (hexec : exec i s = s.arith rd (a + b) (addOverflow a b)) {S : Int}
    (hS : S = a.toInt + b.toInt) (hlow : -2 ^ 31 ≤ S) (hhigh : S ≤ 2 ^ 31 - 1) :
    ∃ v : Word, v.toInt = S ∧ WritesOnly i s rd v := by
  have hfits : ¬addOverflow a b = true := by
    rw [addOverflow, outsideSigned, decide_eq_true_eq]; omega
  refine ⟨a + b, ?_, writesOnly_of_exec_eq_arith hquiet hexec hfits⟩
  rw [addOverflow_eq_saddOverflow] at hfits
  rw [hS, BitVec.toInt_add_of_not_saddOverflow hfits]

/-- A difference in the signed range is exact and written (R220, R225). -/
theorem writes_exact_difference (hexec : exec i s = s.arith rd (a - b) (subOverflow a b)) {S : Int}
    (hS : S = a.toInt - b.toInt) (hlow : -2 ^ 31 ≤ S) (hhigh : S ≤ 2 ^ 31 - 1) :
    ∃ v : Word, v.toInt = S ∧ WritesOnly i s rd v := by
  have hfits : ¬subOverflow a b = true := by
    rw [subOverflow, outsideSigned, decide_eq_true_eq]; omega
  refine ⟨a - b, ?_, writesOnly_of_exec_eq_arith hquiet hexec hfits⟩
  rw [subOverflow_eq_ssubOverflow] at hfits
  rw [hS, BitVec.toInt_sub_of_not_ssubOverflow hfits]

/-- A sum in the unsigned range is exact and written (R220, R223). -/
theorem writes_exact_sum_unsigned (hexec : exec i s = s.arith rd (a + b) (adduOverflow a b))
    (hrange : a.toNat + b.toNat ≤ 2 ^ 32 - 1) :
    ∃ v : Word, v.toNat = a.toNat + b.toNat ∧ WritesOnly i s rd v := by
  have hfits : ¬adduOverflow a b = true := by
    rw [adduOverflow, decide_eq_true_eq]; omega
  exact ⟨a + b, BitVec.toNat_add_of_lt (by omega), writesOnly_of_exec_eq_arith hquiet hexec hfits⟩

/-- A difference that is not negative is exact and written (R220, R227). -/
theorem writes_exact_difference_unsigned (hexec : exec i s = s.arith rd (a - b) (subuOverflow a b))
    (hrange : b.toNat ≤ a.toNat) :
    ∃ v : Word, v.toNat = a.toNat - b.toNat ∧ WritesOnly i s rd v := by
  have hfits : ¬subuOverflow a b = true := by
    rw [subuOverflow, decide_eq_true_eq]; omega
  exact ⟨a - b, BitVec.toNat_sub_of_le hrange, writesOnly_of_exec_eq_arith hquiet hexec hfits⟩

end

/-- Settles O24: each form is an exact sum or difference with rs2 or the sign-extended immediate. -/
theorem signedArithmeticWithoutOverflow : Obligations.SignedArithmeticWithoutOverflow := by
  unfold Obligations.SignedArithmeticWithoutOverflow
  intro rd rs1 rs2 imm s hquiet
  rw [← toInt_signExtend_imm imm]
  refine ⟨?add, ?addi, ?sub, ?subi⟩ <;> intro S
  case add => exact writes_exact_sum hquiet (exec_add rd rs1 rs2 s)
  case addi => exact writes_exact_sum hquiet (exec_addi rd rs1 imm s)
  case sub => exact writes_exact_difference hquiet (exec_sub rd rs1 rs2 s)
  case subi => exact writes_exact_difference hquiet (exec_subi rd rs1 imm s)

/-- Settles O25: each form is an exact sum or difference with rs2 or the zero-extended immediate. -/
theorem unsignedArithmeticWithoutOverflow : Obligations.UnsignedArithmeticWithoutOverflow := by
  unfold Obligations.UnsignedArithmeticWithoutOverflow
  intro rd rs1 rs2 imm s hquiet
  rw [← toNat_setWidth_imm imm]
  refine ⟨?addu, ?addui, ?subu, ?subui⟩
  case addu => exact writes_exact_sum_unsigned hquiet (exec_addu rd rs1 rs2 s)
  case addui => exact writes_exact_sum_unsigned hquiet (exec_addui rd rs1 imm s)
  case subu => exact writes_exact_difference_unsigned hquiet (exec_subu rd rs1 rs2 s)
  case subui => exact writes_exact_difference_unsigned hquiet (exec_subui rd rs1 imm s)

/-! ### Writing rd and concluding -/

/-- Writing a register with the value it holds changes nothing. -/
theorem State.setReg_reg (s : State) (r : Reg) : s.setReg r (s.reg r) = s := by
  by_cases hr : r = 0#5
  · simp [State.setReg, hr]
  · simp [State.setReg, State.reg, hr]

section
variable {i : Instr} {s : State} {rd : Reg} {v : Word} {e : Ending}
  (hexec : exec i s = .next ((s.setReg rd v).conclude e))
include hexec

/-- An instruction that writes rd and goes on changes rd, PC and the shield (R127). -/
theorem goesOn_of_exec_eq_conclude (hnoEntry : s.servicedCause e = none) (hplain : e.writesIscr = false) :
    ∃ t, exec i s = .next t ∧ s.OnlyReg t rd v ∧ t.pc = e.next ∧ t.iscr = s.iscr ∧
      t.shadow = s.shadow - 1 ∧ s.SameData t ∧ s.SameOutside t := by
  have hend : (s.setReg rd v).conclude e =
      { (s.setReg rd v).tickShadow e.writesIscr with pc := e.next } := State.conclude_of_none hnoEntry
  rw [hend, hplain] at hexec
  refine ⟨_, hexec, ?reg, rfl, rfl, rfl, ?data, ?outside⟩
  case reg => exact fun q => s.reg_setReg rd q v
  case data => intro key; rfl
  case outside => constructor <;> intros <;> rfl

/-- An instruction that writes rd and is followed by an entry changes rd, then R31, PC, ISCR and the
shield (R340). -/
theorem entersAfter_of_exec_eq_conclude {c : Cause} (hcause : s.servicedCause e = some c) :
    EntersAfter i s rd v e.saved (s.handler c) (!e.jumped) c.isTrap (decide (c = .uoe))
      (decide (c = .are)) := by
  obtain ⟨hplain, -, -⟩ := State.servicedCause_some hcause
  have hend : (s.setReg rd v).conclude e = ((s.setReg rd v).tickShadow e.writesIscr).enter c e :=
    State.conclude_of_some hcause
  rw [hend, hplain] at hexec
  refine ⟨_, hexec, ?reg, ?pc, ?iscr, rfl, ?data, ?outside⟩
  case reg => intro q; rw [State.reg_enter, State.reg_tickShadow, State.reg_setReg]
  case pc => cases c <;> rfl
  case iscr => exact (State.enter_iscrEntered _ c e).of_eq rfl rfl
  case data => intro key; rfl
  case outside => constructor <;> intros <;> rfl

end

/-! ### With overflow -/

section
variable {i : Instr} {s : State} {rd : Reg} {r : Word} {overflow : Bool}
  (hexec : exec i s = s.arith rd r overflow) (hoverflow : overflow = true)
include hexec hoverflow

/-- On overflow rd receives the wrapped result or keeps its value, and ARE is posted (R230, D12). -/
theorem exec_eq_conclude_of_overflow :
    exec i s = .next ((s.setReg rd (if s.config.areWriteback then r else s.reg rd)).conclude
      ⟨s.pc + 1, s.pc, false, some .are, false⟩) := by
  rw [hexec, hoverflow]
  cases hwriteback : s.config.areWriteback with
  | true => simp only [State.arith, hwriteback]; rfl
  | false => simp only [State.arith, hwriteback, Bool.false_eq_true, if_false, State.setReg_reg]; rfl

/-- A dropped ARE leaves the instruction's own effect (R338, D13). -/
theorem writesOnly_of_overflow (hdrops : s.dropsInternal) :
    WritesOnly i s rd (if s.config.areWriteback then r else s.reg rd) :=
  goesOn_of_exec_eq_conclude (exec_eq_conclude_of_overflow hexec hoverflow)
    (State.servicedCause_dropped hdrops _) rfl

/-- A serviced ARE is entered (R336, R340). -/
theorem entersAre_of_overflow (htakes : s.takesInternal) :
    EntersAfter i s rd (if s.config.areWriteback then r else s.reg rd) s.pc s.config.intAddr
      true false false true :=
  entersAfter_of_exec_eq_conclude (exec_eq_conclude_of_overflow hexec hoverflow)
    (State.servicedCause_internal (r := .are) htakes rfl rfl)

end

/-- The unsigned tests as the statements write them, for the zero-extended immediate. -/
theorem adduOverflow_imm {x : Word} {imm : Imm} (h : 2 ^ 32 - 1 < x.toNat + imm.toNat) :
    adduOverflow x (imm.setWidth 32) = true := by
  rw [← toNat_setWidth_imm] at h
  exact decide_eq_true h

theorem subuOverflow_imm {x : Word} {imm : Imm} (h : x.toNat < imm.toNat) :
    subuOverflow x (imm.setWidth 32) = true := by
  rw [← toNat_setWidth_imm] at h
  exact decide_eq_true h

/-- Settles O27: each form is the shared operation with a dropped ARE. -/
theorem unservicedOverflowGoesOn : Obligations.UnservicedOverflowGoesOn := by
  unfold Obligations.UnservicedOverflowGoesOn
  rintro rd rs1 rs2 imm s _ _ _ hdrops rfl rfl rfl
  refine ⟨?add, ?addi, ?sub, ?subi, ?addu, ?addui, ?subu, ?subui⟩ <;> intro h
  case add => exact writesOnly_of_overflow (exec_add rd rs1 rs2 s) h hdrops
  case addi => exact writesOnly_of_overflow (exec_addi rd rs1 imm s) h hdrops
  case sub => exact writesOnly_of_overflow (exec_sub rd rs1 rs2 s) h hdrops
  case subi => exact writesOnly_of_overflow (exec_subi rd rs1 imm s) h hdrops
  case addu => exact writesOnly_of_overflow (exec_addu rd rs1 rs2 s) (decide_eq_true h) hdrops
  case addui => exact writesOnly_of_overflow (exec_addui rd rs1 imm s) (adduOverflow_imm h) hdrops
  case subu => exact writesOnly_of_overflow (exec_subu rd rs1 rs2 s) (decide_eq_true h) hdrops
  case subui => exact writesOnly_of_overflow (exec_subui rd rs1 imm s) (subuOverflow_imm h) hdrops

/-- Settles O28: each form is the shared operation with a serviced ARE. -/
theorem servicedOverflowEntersAre : Obligations.ServicedOverflowEntersAre := by
  unfold Obligations.ServicedOverflowEntersAre
  rintro rd rs1 rs2 imm s _ _ _ htakes rfl rfl rfl
  refine ⟨?add, ?addi, ?sub, ?subi, ?addu, ?addui, ?subu, ?subui⟩ <;> intro h
  case add => exact entersAre_of_overflow (exec_add rd rs1 rs2 s) h htakes
  case addi => exact entersAre_of_overflow (exec_addi rd rs1 imm s) h htakes
  case sub => exact entersAre_of_overflow (exec_sub rd rs1 rs2 s) h htakes
  case subi => exact entersAre_of_overflow (exec_subi rd rs1 imm s) h htakes
  case addu => exact entersAre_of_overflow (exec_addu rd rs1 rs2 s) (decide_eq_true h) htakes
  case addui => exact entersAre_of_overflow (exec_addui rd rs1 imm s) (adduOverflow_imm h) htakes
  case subu => exact entersAre_of_overflow (exec_subu rd rs1 rs2 s) (decide_eq_true h) htakes
  case subui => exact entersAre_of_overflow (exec_subui rd rs1 imm s) (subuOverflow_imm h) htakes

end Sys2Proof.Machine
end

section
/-!
Control transfer and the decision (46_control_transfer.md R290 to R297; 60_exceptions.md R331 to R338). An
instruction that accesses no data, writes no ISCR and has no destination, as every branch and `jr` and
`trap`, only moves PC where no entry follows.
-/

namespace Sys2Proof.Machine

/-! ### Instructions that only move PC -/

/-- The decision rests on the shield, ISCR and the ending. -/
theorem State.servicedCause_congr {s w : State} (hshadow : w.shadow = s.shadow) (hiscr : w.iscr = s.iscr)
    (e : Ending) : w.servicedCause e = s.servicedCause e := by
  have hbit (b : IscrBit) : w.bit b = s.bit b := State.bit_congr hiscr b
  simp only [State.servicedCause, State.pendingCause, hshadow, hbit]

/-- With R0 as destination, or none, an instruction without data access that is followed by no entry only
goes on at its next address. -/
theorem goesTo_nextAddress {i : Instr} {s : State} (hrd : i.fields.rd = 0) (hlw : i.op ≠ .lw)
    (hsw : i.op ≠ .sw) (hplain : i.isIscrWrite = false) (hnoEntry : s.servicedCause (i.ending s) = none) :
    GoesTo i s (i.nextAddress s) := by
  obtain ⟨w, hw⟩ : ∃ w, i.Performs s w := by
    refine (exec_cases i s).resolve_right fun ⟨_, _, _, _, _, _, hi⟩ => hsw ?_
    rw [hi]; rfl
  have hiscr := hw.iscr hplain
  have hend : w.conclude (i.ending s) = { w.tickShadow i.isIscrWrite with pc := i.nextAddress s } :=
    State.conclude_of_none ((State.servicedCause_congr hw.writes.shadow hiscr _).trans hnoEntry)
  refine ⟨_, hw.exec_eq.trans (congrArg _ hend), rfl, ?regs, hiscr, ?shadow, ?data, ?outside⟩
  case regs =>
    intro q
    by_cases hq : q = 0#5
    · rw [hq]; rfl
    · exact hw.writes.reg (hrd ▸ hq)
  case shadow => simp [hplain, hw.writes.shadow]
  case data => intro key; simp [hw.writes.dmem hsw]
  case outside =>
    obtain ⟨himem, hdevices, hnmi, hmi, hconfig, henv, hbus, hdraws, hresets⟩ :=
      hw.writes.sameOutside hlw hsw
    exact ⟨himem, hdevices, hnmi, hmi, hconfig, henv, hbus, hdraws, hresets⟩

/-! ### Branches and jumps -/

theorem goesTo_beqz {s : State} (hquiet : s.quiet) (rs1 : Reg) (imm : Imm) :
    GoesTo (.beqz rs1 imm) s (if s.reg rs1 = 0 then s.branchTarget imm else s.pc + 1) :=
  goesTo_nextAddress rfl nofun nofun rfl (State.servicedCause_quiet hquiet rfl)

theorem goesTo_bnez {s : State} (hquiet : s.quiet) (rs1 : Reg) (imm : Imm) :
    GoesTo (.bnez rs1 imm) s (if s.reg rs1 ≠ 0 then s.branchTarget imm else s.pc + 1) :=
  goesTo_nextAddress rfl nofun nofun rfl (State.servicedCause_quiet hquiet rfl)

/-- Settles O29: a branch goes to its target or to the next address. -/
theorem conditionalBranches : Obligations.ConditionalBranches := by
  unfold Obligations.ConditionalBranches
  rintro rs1 imm s _ hquiet rfl
  have hbeqz := goesTo_beqz hquiet rs1 imm
  have hbnez := goesTo_bnez hquiet rs1 imm
  constructor
  · intro hzero
    rw [if_pos hzero] at hbeqz
    rw [if_neg (not_not_intro hzero)] at hbnez
    exact ⟨hbeqz, hbnez⟩
  · intro hzero
    rw [if_neg hzero] at hbeqz
    rw [if_pos hzero] at hbnez
    exact ⟨hbeqz, hbnez⟩

/-- The arm of `jsr`: the link is written after the target is computed (R294, D8). -/
theorem exec_jsr (rd rs1 : Reg) (imm : Imm) (s : State) :
    exec (.jsr rd rs1 imm) s =
      .next ((s.setReg rd s.readPc).conclude ((Instr.jsr rd rs1 imm).ending s)) := rfl

/-- Settles O31: with nothing serviceable the arm goes on after its one write. -/
theorem jsrLinksAndJumps : Obligations.JsrLinksAndJumps := by
  unfold Obligations.JsrLinksAndJumps
  intro rd rs1 imm s hquiet
  obtain ⟨t, hexec, hreg, hpc, hrest⟩ := goesOn_of_exec_eq_conclude (exec_jsr rd rs1 imm s)
    (State.servicedCause_quiet hquiet rfl) rfl
  exact ⟨t, hexec, hpc, hreg, hrest⟩

/-- An instruction without writes that is followed by an entry changes R31, PC, ISCR and the shield
(R340). -/
theorem entersAfter_of_exec_eq_conclude_self {i : Instr} {s : State} {e : Ending} {c : Cause}
    (hexec : exec i s = .next (s.conclude e)) (hcause : s.servicedCause e = some c) :
    EntersAfter i s 0 0 e.saved (s.handler c) (!e.jumped) c.isTrap (decide (c = .uoe))
      (decide (c = .are)) :=
  entersAfter_of_exec_eq_conclude (rd := 0) (v := 0) hexec hcause

theorem exec_trap (rs1 : Reg) (imm : Imm) (s : State) :
    exec (.trap rs1 imm) s = .next (s.conclude ((Instr.trap rs1 imm).ending s)) := rfl

/-- Settles O32: the posted TRAP is the highest request. -/
theorem servicedTrapEntersItsTarget : Obligations.ServicedTrapEntersItsTarget := by
  unfold Obligations.ServicedTrapEntersItsTarget
  intro rs1 imm s htakes
  exact entersAfter_of_exec_eq_conclude_self (exec_trap rs1 imm s)
    (State.servicedCause_internal (r := .trap (s.reg rs1 + imm.signExtend 32)) htakes rfl rfl)

/-- Settles O33: a dropped TRAP leaves the jump. -/
theorem unservicedTrapIsAJump : Obligations.UnservicedTrapIsAJump := by
  unfold Obligations.UnservicedTrapIsAJump
  intro rs1 imm s hdrops
  exact goesTo_of_exec_eq_conclude (exec_trap rs1 imm s) (State.servicedCause_dropped hdrops _) rfl

/-! ### The decision -/

/-- The order of the external and trace requests (R336). -/
theorem State.pendingCause_of_mi {s : State} (hnmi : s.bit .nmi = false) (hmi : s.bit .mi = true)
    (hmask : s.bit .mask = true) : s.pendingCause = some .mi := by
  simp [State.pendingCause, hnmi, hmi, hmask]

theorem State.pendingCause_of_trm {s : State} (hnmi : s.bit .nmi = false)
    (hmi : s.bit .mi = false ∨ s.bit .mask = false) (htrm : s.bit .trm = true) :
    s.pendingCause = some .trm := by
  rcases hmi with hmi | hmi <;> simp [State.pendingCause, hnmi, hmi, htrm]

/-- Settles O38: the clauses are the branches of the decision, in its order. -/
theorem decisionTakesTheHighestRequest : Obligations.DecisionTakesTheHighestRequest := by
  unfold Obligations.DecisionTakesTheHighestRequest
  intro s e
  constructor
  · rintro (hwrites | hdrops)
    · exact s.servicedCause_writesIscr hwrites
    · exact State.servicedCause_dropped hdrops e
  intro hplain htakes
  refine ⟨?trap, ?uoe, ?are, ?none⟩
  case trap => exact fun a hposted => State.servicedCause_internal htakes hplain hposted
  case uoe => exact fun hposted => State.servicedCause_internal htakes hplain hposted
  case are => exact fun hposted => State.servicedCause_internal htakes hplain hposted
  case none =>
    intro hnothing
    rw [State.servicedCause_pending htakes hplain hnothing]
    refine ⟨State.pendingCause_of_nmi, State.pendingCause_of_mi, State.pendingCause_of_trm, ?_⟩
    intro hnmi hmi htrm
    rw [← State.servicedCause_pending htakes hplain hnothing]
    exact State.servicedCause_quiet (.inr (.inr ⟨hnmi, hmi, htrm⟩)) hnothing

/-- MI is chosen only where MASK is on (R333). -/
theorem State.mask_of_pendingCause_mi {s : State} (h : s.pendingCause = some .mi) :
    s.bit .mask = true := by
  unfold State.pendingCause at h
  split at h
  · cases h
  split at h
  · rename_i hmi
    exact (Bool.and_eq_true_iff.mp hmi).2
  split at h
  · cases h
  · cases h

/-- With GM off the boundary accepts nothing (R332). -/
theorem State.atBoundary_iscr_of_gm {s : State} (hgm : s.bit .gm = false) :
    s.atBoundary.iscr = s.iscr := by
  refine iscr_ext fun b => ?_
  have haccept := s.takeInput.bit_accept b
  rw [s.bit_takeInput, s.bit_takeInput, hgm] at haccept
  exact haccept.trans (Bool.or_false _)

/-- With GM on it accepts an active line, whatever MASK is (R331, R333). -/
theorem State.bit_atBoundary_nmi (s : State) :
    s.atBoundary.bit .nmi = (s.bit .nmi || (s.bit .gm && s.takeInput.nmiLine)) := by
  simp [State.atBoundary, State.bit_accept]

theorem State.bit_atBoundary_mi (s : State) :
    s.atBoundary.bit .mi = (s.bit .mi || (s.bit .gm && s.takeInput.miLine)) := by
  simp [State.atBoundary, State.bit_accept]

/-- Settles O39: GM stands before acceptance and before the decision, MASK in the decision alone. -/
theorem gmGatesAcceptanceAndMaskGatesServicing : Obligations.GmGatesAcceptanceAndMaskGatesServicing := by
  unfold Obligations.GmGatesAcceptanceAndMaskGatesServicing
  intro s
  refine ⟨?off, ?on, ?mi, ?nmi⟩
  case off =>
    intro hgm
    have hiscr := State.atBoundary_iscr_of_gm hgm
    exact ⟨hiscr, State.servicedCause_dropped (.inr ((State.bit_congr hiscr .gm).trans hgm))⟩
  case on =>
    intro hgm
    constructor <;> intro hline
    · rw [State.bit_atBoundary_nmi, hgm, hline]; simp
    · rw [State.bit_atBoundary_mi, hgm, hline]; simp
  case mi =>
    intro e hmi
    obtain ⟨-, ⟨-, hgm⟩, ⟨r, -, hcause⟩ | ⟨-, hpending⟩⟩ := State.servicedCause_some hmi
    · cases r <;> cases hcause
    · exact ⟨hgm, State.mask_of_pendingCause_mi hpending⟩
  case nmi =>
    intro e htakes hplain hnothing hnmi
    rw [State.servicedCause_pending htakes hplain hnothing, State.pendingCause_of_nmi hnmi]

/-! ### Trace mode -/

/-- Settles O53: unshielded, the `jr` is followed by the TRM entry that saves its target; shielded, it is
a jump. -/
theorem traceModeReentersAtAnUnshieldedReturn : Obligations.TraceModeReentersAtAnUnshieldedReturn := by
  unfold Obligations.TraceModeReentersAtAnUnshieldedReturn
  rintro rs1 imm s _ rfl hgm htrm hnmi hmi
  constructor
  · intro hshadow
    exact entersAfter_of_exec_eq_conclude_self (exec_jr rs1 imm s)
      ((State.servicedCause_pending ⟨hshadow, hgm⟩ rfl rfl).trans (State.pendingCause_of_trm hnmi hmi htrm))
  · intro hshadow
    exact goesTo_of_exec_eq_endJump (exec_jr rs1 imm s) (.inl hshadow)

end Sys2Proof.Machine
end

section
/-!
The instructions that write ISCR (47_special_register.md R311 to R316): each writes its bits and is followed
by no entry, in every state.
-/

namespace Sys2Proof.Machine

/-- What each of the four writes is what the statements about it say, bit by bit. -/
theorem writesIscr_of_isIscrWrite {i : Instr} (h : i.isIscrWrite = true) (s : State) :
    WritesIscr i s (i.bitAfter s) := by
  cases i with
  | intm imm | intgm imm | trm imm =>
    exact writesIscr_of_exec_eq_endIscrWrite (v := iscrPut s.iscr _ _) rfl fun b => iscrGet_iscrPut _ _ b _
  | movi2s rs2 => exact writesIscr_of_exec_eq_endIscrWrite (exec_movi2s rs2 s) (iscrGet_movi2sIscr _ _)
  | _ => cases h

/-- Settles O34: the three are ISCR writes of one bit. -/
theorem maskInstructionsWriteOneBit : Obligations.MaskInstructionsWriteOneBit := by
  unfold Obligations.MaskInstructionsWriteOneBit
  intro imm s
  refine ⟨?intm, ?intgm, ?trm⟩
  case intm => exact writesIscr_of_isIscrWrite (i := .intm imm) rfl s
  case intgm => exact writesIscr_of_isIscrWrite (i := .intgm imm) rfl s
  case trm => exact writesIscr_of_isIscrWrite (i := .trm imm) rfl s

/-- Settles O37: none of the four writes a bit that entry loads. -/
theorem iscrWriteIsNotFollowedByAnEntry : Obligations.IscrWriteIsNotFollowedByAnEntry := by
  unfold Obligations.IscrWriteIsNotFollowedByAnEntry
  intro i s hwrites
  obtain ⟨t, hexec, hbits, hpc, hregs, -⟩ := writesIscr_of_isIscrWrite hwrites s
  have hkept {b : IscrBit} (hb : b.loadedByEntry = true) : t.bit b = s.bit b :=
    (hbits b).trans (i.bitAfter_eq_of_loadedByEntry s hb)
  exact ⟨t, hexec, hpc, hregs, hkept rfl, hkept rfl, hkept rfl, hkept rfl⟩

end Sys2Proof.Machine
end

section
/-!
Data access (20_memory.md R152 to R164; 40_memory_access.md R210 to R212). A word is its four bytes, and two
words share no byte. `lw` is the register write of what a read gives, `sw` the conclusion after what a write
leaves; the address alone says which of program text, RAM, a device register or nothing answers.
-/

namespace Sys2Proof.Machine

/-! ### Reading a word after writing one -/

/-- A byte of a word, after a word is written: the written one's, or untouched. -/
theorem Memory.byte?_putWord_cellKey (m : Memory) (a b v : Word) {k : Nat} (hk : k < 4) :
    (m.putWord a v).byte? (cellKey b k) =
      if b = a then some (byteOfWord v k) else m.byte? (cellKey b k) := by
  have hkey (j : Nat) (hj : j < 4) : cellKey b k = cellKey a j ↔ b = a ∧ k = j :=
    ⟨cellKey_inj hk hj, fun ⟨hb, hkj⟩ => by rw [hb, hkj]⟩
  rw [Memory.byte?_putWord, if_congr (hkey 3 (by decide)) rfl rfl, if_congr (hkey 2 (by decide)) rfl rfl,
    if_congr (hkey 1 (by decide)) rfl rfl, if_congr (hkey 0 (by decide)) rfl rfl]
  by_cases hb : b = a
  · obtain rfl | rfl | rfl | rfl : k = 0 ∨ k = 1 ∨ k = 2 ∨ k = 3 := by omega
    all_goals simp [hb]
  · simp [hb]

theorem Memory.word?_putWord (m : Memory) (a b v : Word) :
    (m.putWord a v).word? b = if b = a then some v else m.word? b := by
  unfold Memory.word?
  rw [m.byte?_putWord_cellKey a b v (by decide : 0 < 4), m.byte?_putWord_cellKey a b v (by decide : 1 < 4),
    m.byte?_putWord_cellKey a b v (by decide : 2 < 4), m.byte?_putWord_cellKey a b v (by decide : 3 < 4)]
  by_cases hb : b = a
  · simp only [hb, if_true, wordOfBytes_byteOfWord]
  · simp only [hb, if_false]

theorem Memory.wordOr_putWord (m : Memory) (undef : Nat → Byte) (a b v : Word) :
    (m.putWord a v).wordOr undef b = if b = a then v else m.wordOr undef b := by
  unfold Memory.wordOr Memory.byteOr
  rw [m.byte?_putWord_cellKey a b v (by decide : 0 < 4), m.byte?_putWord_cellKey a b v (by decide : 1 < 4),
    m.byte?_putWord_cellKey a b v (by decide : 2 < 4), m.byte?_putWord_cellKey a b v (by decide : 3 < 4)]
  by_cases hb : b = a
  · simp only [hb, if_true, Option.getD_some, wordOfBytes_byteOfWord]
  · simp only [hb, if_false]

/-- A byte outside the written word is untouched. -/
theorem Memory.byte?_putWord_of_outside (m : Memory) (a v : Word) {key : Nat}
    (h : ∀ k, k < 4 → key ≠ 4 * a.toNat + k) : (m.putWord a v).byte? key = m.byte? key := by
  have hkey : ∀ k, k < 4 → key ≠ cellKey a k := h
  rw [Memory.byte?_putWord, if_neg (hkey 3 (by decide)), if_neg (hkey 2 (by decide)),
    if_neg (hkey 1 (by decide)), if_neg (hkey 0 (by decide))]

/-- Settles O12: both readings are made of the same four bytes. -/
theorem wordReadAfterWordWrite : Obligations.WordReadAfterWordWrite := by
  unfold Obligations.WordReadAfterWordWrite
  intro m undef a b v
  exact ⟨m.wordOr_putWord undef a b v, m.word?_putWord a b v⟩

/-! ### What a read gives, by what stands at the address -/

section
variable {s : State} {a : Word}

/-- Without program text at the address, the memory map decides (R164). -/
theorem State.textAt_eq_none (h : s.config.unifiedMemory = false ∨ s.imem.word? a = none) :
    s.textAt a = none := by
  unfold State.textAt
  rcases h with h | h <;> simp [h]

theorem State.memRead_text {w : Word} (hunified : s.config.unifiedMemory = true)
    (hword : s.imem.word? a = some w) : s.memRead a = (w, s) := by
  simp [State.memRead, State.textAt, hunified, hword]

variable (htext : s.textAt a = none)
include htext

theorem State.memRead_driven {w : Word} (hkind : s.kindAt a = .device)
    (hword : s.devices.word? a = some w) :
    s.memRead a = (w, { s with bus := s.bus ++ [.read a] }) := by
  simp [State.memRead, htext, hkind, hword]

theorem State.memRead_undriven (hkind : s.kindAt a = .device) (hword : s.devices.word? a = none) :
    s.memRead a =
      (Config.freeWord s.draws, { s with bus := s.bus ++ [.read a], draws := s.draws + 1 }) := by
  simp [State.memRead, htext, hkind, hword, State.draw]

theorem State.memRead_absent (hkind : s.kindAt a = .absent) :
    s.memRead a = (Config.freeWord s.draws, { s with draws := s.draws + 1 }) := by
  simp [State.memRead, htext, hkind, State.draw]

theorem State.memWrite_ram (hkind : s.kindAt a = .ram) (v : Word) :
    s.memWrite a v = some { s with dmem := s.dmem.putWord a v } := by
  simp [State.memWrite, htext, hkind]

theorem State.memWrite_device (hkind : s.kindAt a = .device) (v : Word) :
    s.memWrite a v = some { s with bus := s.bus ++ [.write a v] } := by
  simp [State.memWrite, htext, hkind]

theorem State.memWrite_absent (hkind : s.kindAt a = .absent) (v : Word) : s.memWrite a v = some s := by
  simp [State.memWrite, htext, hkind]

end

/-! ### `lw` -/

section
variable {rd rs1 : Reg} {imm : Imm} {s : State}

/-- The arm of `lw`: what is read goes to rd, in the state the read leaves (R211). -/
theorem exec_lw (rd rs1 : Reg) (imm : Imm) (s : State) :
    exec (.lw rd rs1 imm) s =
      (s.memRead (s.reg rs1 + imm.signExtend 32)).2.writeReg rd
        (s.memRead (s.reg rs1 + imm.signExtend 32)).1 := rfl

/-- A read that changes nothing makes `lw` a register write. -/
theorem exec_lw_of_memRead {w : Word} (hread : s.memRead (s.reg rs1 + imm.signExtend 32) = (w, s)) :
    exec (.lw rd rs1 imm) s = s.writeReg rd w := by rw [exec_lw, hread]

/-- Whatever answers, `lw` writes rd and changes otherwise only what the read changes: the record of device
accesses and the count of free values. -/
theorem lw_of_memRead (hquiet : s.quiet) {r : State} {w : Word}
    (hread : s.memRead (s.reg rs1 + imm.signExtend 32) = (w, r)) :
    ∃ t, exec (.lw rd rs1 imm) s = .next t ∧ s.OnlyReg t rd w ∧ t.pc = s.pc + 1 ∧ t.iscr = s.iscr ∧
      s.SameData t ∧ t.bus = r.bus ∧ t.draws = r.draws := by
  obtain ⟨hgpr, hpc, hiscr, hshadow, hdmem⟩ :
      r.gpr = s.gpr ∧ r.pc = s.pc ∧ r.iscr = s.iscr ∧ r.shadow = s.shadow ∧ r.dmem = s.dmem := by
    have hr : r = (s.memRead (s.reg rs1 + imm.signExtend 32)).2 := by rw [hread]
    rw [hr]; simp
  have hrquiet : (r.setReg rd w).quiet := by simpa [State.quiet, State.bit, hiscr, hshadow] using hquiet
  have hexec : exec (.lw rd rs1 imm) s = .next (r.setReg rd w).endPlain := by rw [exec_lw, hread]; rfl
  rw [State.endPlain_of_quiet hrquiet] at hexec
  refine ⟨_, hexec, ?reg, congrArg (· + 1) hpc, hiscr, ?data, rfl, rfl⟩
  case reg =>
    intro q
    have hset := r.reg_setReg rd q w
    rwa [State.reg_congr hgpr q] at hset
  case data => intro key; exact congrArg (Memory.byte? · key) hdmem

end

/-- Settles O13: a read of RAM or of program text changes nothing. -/
theorem lwLoadsTheAddressedWord : Obligations.LwLoadsTheAddressedWord := by
  unfold Obligations.LwLoadsTheAddressedWord
  rintro rd rs1 imm s _ rfl hquiet
  constructor
  · intro htext hkind
    exact writesOnly_of_exec_eq_writeReg
      (exec_lw_of_memRead (State.memRead_ram (State.textAt_eq_none htext) hkind)) hquiet
  · intro w hunified hword
    exact writesOnly_of_exec_eq_writeReg
      (exec_lw_of_memRead (State.memRead_text hunified hword)) hquiet

/-- Settles O14: three reads that change the record of accesses or the count of free values. -/
theorem lwReadsDevicesAndUnpopulatedAddresses : Obligations.LwReadsDevicesAndUnpopulatedAddresses := by
  unfold Obligations.LwReadsDevicesAndUnpopulatedAddresses
  rintro rd rs1 imm s _ rfl hquiet hnotext
  have htext := State.textAt_eq_none hnotext
  refine ⟨?driven, ?undriven, ?absent⟩
  case driven => exact fun w hkind hword => lw_of_memRead hquiet (State.memRead_driven htext hkind hword)
  case undriven => exact fun hkind hword => lw_of_memRead hquiet (State.memRead_undriven htext hkind hword)
  case absent => exact fun hkind => lw_of_memRead hquiet (State.memRead_absent htext hkind)

/-! ### `sw` -/

section
variable {rs1 rs2 : Reg} {imm : Imm} {s : State}

/-- The arm of `sw` where the write has an answer (R212). -/
theorem exec_sw_of_memWrite {r : State}
    (hwrite : s.memWrite (s.reg rs1 + imm.signExtend 32) (s.reg rs2) = some r) :
    exec (.sw rs1 rs2 imm) s = .next r.endPlain := by
  have haddr : s.regPlus rs1 imm = s.reg rs1 + imm.signExtend 32 := rfl
  simp only [exec, execSw, haddr, hwrite]

/-- With nothing serviceable after the write it goes on. -/
theorem exec_sw_of_quiet {r : State}
    (hwrite : s.memWrite (s.reg rs1 + imm.signExtend 32) (s.reg rs2) = some r) (hquiet : r.quiet) :
    exec (.sw rs1 rs2 imm) s = .next { r.tickShadow false with pc := r.pc + 1 } := by
  rw [exec_sw_of_memWrite hwrite, State.endPlain_of_quiet hquiet]

/-- It is refused where the write has no answer (R164). -/
theorem exec_sw_eq_refused_iff :
    exec (.sw rs1 rs2 imm) s = .refused .storeToProgramText ↔
      s.memWrite (s.reg rs1 + imm.signExtend 32) (s.reg rs2) = none := by
  have haddr : s.regPlus rs1 imm = s.reg rs1 + imm.signExtend 32 := rfl
  cases hwrite : s.memWrite (s.reg rs1 + imm.signExtend 32) (s.reg rs2) <;>
    simp [exec, execSw, haddr, hwrite]

end

/-- Settles O15: RAM takes the four bytes of rs2, and the instruction goes on. -/
theorem swStoresTheWord : Obligations.SwStoresTheWord := by
  unfold Obligations.SwStoresTheWord
  rintro rs1 rs2 imm s _ rfl hquiet hnotext hkind
  have hwrite := State.memWrite_ram (State.textAt_eq_none hnotext) hkind (s.reg rs2)
  refine ⟨_, exec_sw_of_quiet hwrite hquiet, ?word, ?ramWord, ?bytes, ?words, State.reg_congr rfl, rfl,
    rfl, rfl, ?outside⟩
  case word => exact (Memory.word?_putWord _ _ _ _).trans (if_pos rfl)
  case ramWord => exact (Memory.wordOr_putWord _ _ _ _ _).trans (if_pos rfl)
  case bytes => exact fun key hkey => Memory.byte?_putWord_of_outside _ _ _ hkey
  case words => exact fun b hb => (Memory.wordOr_putWord _ _ _ _ _).trans (if_neg hb)
  case outside => constructor <;> intros <;> rfl

/-- Settles O16: a device write reaches the record of accesses alone, a write to nothing not even that. -/
theorem swReachesDevicesAndUnpopulatedAddresses : Obligations.SwReachesDevicesAndUnpopulatedAddresses := by
  unfold Obligations.SwReachesDevicesAndUnpopulatedAddresses
  rintro rs1 rs2 imm s _ rfl hquiet hnotext
  have htext := State.textAt_eq_none hnotext
  constructor
  · intro hkind
    have hwrite := State.memWrite_device htext hkind (s.reg rs2)
    exact ⟨_, exec_sw_of_quiet hwrite hquiet, rfl, State.reg_congr rfl, rfl, rfl, fun _ => rfl⟩
  · intro hkind
    exact goesTo_of_exec_eq_conclude (exec_sw_of_memWrite (State.memWrite_absent htext hkind (s.reg rs2)))
      (State.servicedCause_quiet hquiet rfl) rfl

/-- Settles O17: `sw` is refused exactly where the write has no answer. -/
theorem swIsRefusedExactlyAtProgramText : Obligations.SwIsRefusedExactlyAtProgramText := by
  unfold Obligations.SwIsRefusedExactlyAtProgramText
  intro rs1 rs2 imm s
  exact exec_sw_eq_refused_iff.trans State.memWrite_eq_none_iff

/-! ### R0 as destination -/

theorem State.OnlyReg.sameRegs {s t : State} {v : Word} (h : s.OnlyReg t 0 v) : s.SameRegs t :=
  fun q => (h q).trans (if_neg fun ⟨hq, hne⟩ => hne hq)

/-- Settles O18: R0 has no storage; `jsr` still jumps and `lw` still makes its access. -/
theorem registerZeroIsHardwired : Obligations.RegisterZeroIsHardwired := by
  unfold Obligations.RegisterZeroIsHardwired
  intro rs1 imm s a v
  refine ⟨rfl, rfl, ?_⟩
  rintro rfl hquiet
  constructor
  · exact goesTo_nextAddress (i := .jsr 0 rs1 imm) rfl nofun nofun rfl (State.servicedCause_quiet hquiet rfl)
  · intro hnotext hkind
    have htext := State.textAt_eq_none hnotext
    cases hword : s.devices.word? (s.reg rs1 + imm.signExtend 32) with
    | some w =>
      obtain ⟨t, hexec, hreg, -, -, -, hbus, -⟩ :=
        lw_of_memRead (rd := 0) hquiet (State.memRead_driven htext hkind hword)
      exact ⟨t, hexec, hreg.sameRegs, hbus⟩
    | none =>
      obtain ⟨t, hexec, hreg, -, -, -, hbus, -⟩ :=
        lw_of_memRead (rd := 0) hquiet (State.memRead_undriven htext hkind hword)
      exact ⟨t, hexec, hreg.sameRegs, hbus⟩

end Sys2Proof.Machine
end

section
/-!
Reset, the boundary of a step and the words it cannot run (70_reset_and_hazards.md R370, R371;
60_exceptions.md R331 to R335, R359; 30_encoding.md R188, R189), and the return sequence, the one statement
about two steps (60_exceptions.md R349, R350).
-/

namespace Sys2Proof.Machine

/-! ### Reset -/

/-- Register n + 1 is entry n of the register file (R122). -/
theorem State.reg_ofNat_succ (s : State) {n : Nat} (hn : n < 31) :
    s.reg (BitVec.ofNat 5 (n + 1)) = s.gpr[n] := by
  have hindex : (BitVec.ofNat 5 (n + 1)).toNat = n + 1 := by
    rw [BitVec.toNat_ofNat]
    omega
  have hne : BitVec.ofNat 5 (n + 1) ≠ 0#5 := by
    intro hzero
    rw [hzero] at hindex
    cases hindex
  simp only [State.reg, if_neg hne, hindex, Nat.add_sub_cancel]

/-- A step at whose boundary a reset is raised is that reset (R370; log 13). -/
theorem step_of_reset {s : State} {l : ResetLoad} (h : s.pendingReset = some l) :
    step s = .next (s.takeInput.resetEvent l) := by simp [step, h]

/-- Settles O7: by evaluation, bit by bit. -/
theorem resetStateIsTheSpecs : Obligations.ResetStateIsTheSpecs := by
  unfold Obligations.ResetStateIsTheSpecs
  refine ⟨rfl, rfl, rfl, ?bits, rfl, fun _ => ⟨rfl, rfl⟩⟩
  case bits => intro b; cases b <;> rfl

/-- Settles O8: the reset event sets each of these from the configuration or the load. -/
theorem resetEventEntersTheResetState : Obligations.ResetEventEntersTheResetState := by
  unfold Obligations.ResetEventEntersTheResetState
  intro s l hreset
  refine ⟨_, step_of_reset hreset, ?pc, ?iscr, rfl, fun n hn => State.reg_ofNat_succ _ hn,
    fun _ => rfl, fun _ => rfl, s.takeInput_config, rfl⟩
  case pc => rw [State.resetEvent_pc, State.takeInput_config]
  case iscr => rw [State.resetEvent_iscr, State.takeInput_config]

/-! ### The boundary -/

theorem State.takeInput_nil {s : State} (h : s.env = []) : s.takeInput = s := by
  simp [State.takeInput, h]

theorem State.takeInput_cons {s : State} {e : EnvInput} {rest : List EnvInput} (h : s.env = e :: rest) :
    s.takeInput =
      { s with nmiLine := e.nmiLine, miLine := e.miLine, devices := s.devices.load e.devices, env := rest } := by
  simp [State.takeInput, h]

/-- Of the words loaded at one address the last one stands. -/
theorem Memory.word?_load_of_lookup (m : Memory) {ws : List (Word × Word)} {a v : Word}
    (h : ws.reverse.lookup a = some v) : (m.load ws).word? a = some v := by
  induction ws using List.reverseRecOn with
  | nil => cases h
  | append_singleton ws p ih =>
    obtain ⟨b, w⟩ := p
    have hload : m.load (ws ++ [(b, w)]) = (m.load ws).putWord b w := List.foldl_concat ..
    rw [hload, Memory.word?_putWord]
    rw [List.reverse_concat, List.lookup_cons] at h
    by_cases hab : a = b
    · simpa [hab] using h
    · have hne : (a == b) = false := by simpa using hab
      rw [hne] at h
      rw [if_neg hab]
      exact ih h

/-- Settles O43: the boundary takes one input off the queue, if there is one, and sets NMI and MI. -/
theorem boundaryAcceptsRequests : Obligations.BoundaryAcceptsRequests := by
  unfold Obligations.BoundaryAcceptsRequests
  rintro s _ rfl
  refine ⟨?nothing, ?input, s.bit_atBoundary_nmi, s.bit_atBoundary_mi,
    fun _ hnmi hmi => s.bit_atBoundary hnmi hmi, s.atBoundary_pc, State.reg_congr s.atBoundary_gpr, ?data,
    s.atBoundary_shadow, ?image, s.atBoundary_config, s.atBoundary_bus, s.atBoundary_draws,
    s.atBoundary_resets⟩
  case nothing =>
    intro henv
    rw [State.atBoundary, State.takeInput_nil henv]
    exact ⟨rfl, rfl, henv, fun _ => rfl⟩
  case input =>
    intro e rest henv
    rw [State.atBoundary, State.takeInput_cons henv]
    exact ⟨rfl, rfl, rfl, fun _ _ h => Memory.word?_load_of_lookup _ h,
      fun key h => Memory.byte?_load_of_untouched _ _ key h⟩
  case data => intro key; rw [s.atBoundary_dmem]
  case image => intro key; rw [s.atBoundary_imem]

/-! ### The word at PC -/

section
variable {s : State} (hreset : s.pendingReset = none)
include hreset

/-- Outside the image there is nothing to run (R150, U9). -/
theorem step_of_no_word (hword : s.imem.word? s.pc = none) : step s = .fault .fetchOutsideImage := by
  rw [step_of_no_reset hreset]
  simp [State.run, State.fetch, hword]

variable {w : Word} (hword : s.imem.word? s.pc = some w)
include hword

theorem step_of_instr {i : Instr}
    (hdecode : decodeWord s.config.opcodes s.config.unusedFields w = .instr i) :
    step s = exec i s.atBoundary := by
  rw [step_of_no_reset hreset]
  simp [State.run, State.fetch, State.decode, hword, hdecode]

theorem step_of_illegal (hdecode : decodeWord s.config.opcodes s.config.unusedFields w = .illegal) :
    step s = .next s.atBoundary.illegalWord := by
  rw [step_of_no_reset hreset]
  simp [State.run, State.fetch, State.decode, hword, hdecode]

theorem step_of_malformed (hdecode : decodeWord s.config.opcodes s.config.unusedFields w = .malformed) :
    step s = .refused .malformedWord := by
  rw [step_of_no_reset hreset]
  simp [State.run, State.fetch, State.decode, hword, hdecode]

end

/-- Fetch and decode in the boundary state are those in the state before it. -/
theorem State.fetch_atBoundary (s : State) : s.atBoundary.fetch = s.imem.word? s.pc := by
  simp [State.fetch]

theorem State.decode_atBoundary (s : State) (w : Word) :
    s.atBoundary.decode w = decodeWord s.config.opcodes s.config.unusedFields w := by
  simp [State.decode]

/-- Settles O44: the boundary changes neither the word at PC nor how it decodes. -/
theorem stepRunsTheDecodedInstruction : Obligations.StepRunsTheDecodedInstruction := by
  unfold Obligations.StepRunsTheDecodedInstruction
  intro s w i hreset hword hdecode
  exact step_of_instr hreset hword hdecode

/-- Settles O45: the two outcomes of fetch and decode that run nothing. -/
theorem stepStopsOutsideTheImageAndAtMalformedWords :
    Obligations.StepStopsOutsideTheImageAndAtMalformedWords := by
  unfold Obligations.StepStopsOutsideTheImageAndAtMalformedWords
  intro s hreset
  exact ⟨step_of_no_word hreset, fun w hword hdecode => step_of_malformed hreset hword hdecode⟩

/-- Settles O41: UOE is posted and taken, and its entry saves the word's own address. -/
theorem illegalWordEntersUoe : Obligations.IllegalWordEntersUoe := by
  unfold Obligations.IllegalWordEntersUoe
  rintro s _ w hreset rfl hfetch hdecode htakes
  rw [s.fetch_atBoundary] at hfetch
  rw [s.decode_atBoundary] at hdecode
  have hoff : s.atBoundary.SameOutside s.atBoundary.illegalWord := State.conclude_sameOutside _ _
  have hstep := step_of_illegal hreset hfetch hdecode
  obtain ⟨e, hsaved, hjumped, henter⟩ := State.illegalWord_of_takesInternal htakes
  rw [henter] at hstep hoff
  refine ⟨_, hstep, ?pc, ?regs, ?iscr, ?data, hoff⟩
  case pc => exact congrArg Config.intAddr s.atBoundary_config
  case regs =>
    intro q
    rw [State.reg_enter, hsaved, s.atBoundary_pc, State.reg_tickShadow, State.reg_congr s.atBoundary_gpr]
  case iscr =>
    have hiscr := (s.atBoundary.tickShadow false).enter_iscrEntered .uoe e
    rw [hjumped] at hiscr
    exact hiscr.of_eq rfl rfl
  case data => intro key; simp

/-- Settles O42: the request is dropped, and the illegal word is as good as not there. -/
theorem unservicedIllegalWordIsSkipped : Obligations.UnservicedIllegalWordIsSkipped := by
  unfold Obligations.UnservicedIllegalWordIsSkipped
  rintro s _ w hreset rfl hfetch hdecode hdrops
  rw [s.fetch_atBoundary] at hfetch
  rw [s.decode_atBoundary] at hdecode
  have hstep := step_of_illegal hreset hfetch hdecode
  rw [State.illegalWord_of_dropsInternal hdrops, s.atBoundary_pc] at hstep
  refine ⟨_, hstep, rfl, State.reg_congr s.atBoundary_gpr, rfl, ?data, ?outside⟩
  case data => intro key; simp
  case outside => constructor <;> intros <;> rfl

/-! ### The return sequence -/

/-- The next word is the encoding of an instruction under a map of pairwise different opcodes, so the step
runs it. -/
theorem step_of_encoded {s : State} {i : Instr} (hinj : s.config.opcodes.injective = true)
    (hreset : s.pendingReset = none) (hword : s.imem.word? s.pc = some (encode s.config.opcodes i)) :
    step s = exec i s.atBoundary :=
  step_of_instr hreset hword (decodeOfEncodeIsTheInstruction _ _ i
    (injectiveMapGivesEveryInstructionAWord _ hinj i))

/-- A word is read from its four bytes. -/
theorem Memory.word?_congr {m n : Memory} (h : ∀ key, n.byte? key = m.byte? key) (a : Word) :
    n.word? a = m.word? a := by
  unfold Memory.word?
  simp only [h]

theorem State.pendingReset_congr {s t : State} (h : t.env = s.env) : t.pendingReset = s.pendingReset := by
  unfold State.pendingReset
  rw [h]

/-- An entry that no request of the instruction caused goes to INT_ADDR (R342). -/
theorem State.handler_of_request_none {s : State} {e : Ending} {c : Cause}
    (hc : s.servicedCause e = some c) (hrequest : e.request = none) :
    s.handler c = s.config.intAddr := by
  obtain ⟨-, -, ⟨r, hr, -⟩ | ⟨-, hpending⟩⟩ := State.servicedCause_some hc
  · rw [hrequest] at hr; cases hr
  · rcases State.pendingCause_external hpending with rfl | rfl | rfl <;> rfl

/-- `jr R31, 0` keeps the address in R31: it goes there, or an entry saves that address in R31 again, with
INC off (R297, R341). -/
theorem interruptReturn_keeps_link (s : State) :
    ∃ u, exec (.jr 31 0) s = .next u ∧ s.SameRegs u ∧
      ((u.pc = s.reg 31 ∧ u.iscr = s.iscr) ∨
        (u.pc = s.config.intAddr ∧ u.bit .gm = false ∧ u.bit .inc = false)) := by
  refine ⟨_, exec_interruptReturn s, ?_⟩
  rw [State.endJump]
  rcases s.conclude_cases ⟨s.reg 31, s.reg 31, true, none, false⟩ with h | ⟨c, hc, h⟩
  · rw [h]
    exact ⟨State.reg_congr rfl, .inl ⟨rfl, rfl⟩⟩
  · rw [h]
    have hhandler := State.handler_of_request_none hc rfl
    have hiscr := (s.tickShadow false).enter_iscrEntered c ⟨s.reg 31, s.reg 31, true, none, false⟩
    refine ⟨fun q => ?_, .inr ⟨hhandler, hiscr.gm, hiscr.inc⟩⟩
    rw [State.reg_enter, State.reg_tickShadow]
    by_cases hq : q = 31#5
    · rw [if_pos hq, hq]; rfl
    · rw [if_neg hq]

/-- Settles O54: no entry follows the `intgm`, and the `jr` keeps the address. -/
theorem returnSequenceKeepsTheReturnAddress : Obligations.ReturnSequenceKeepsTheReturnAddress := by
  unfold Obligations.ReturnSequenceKeepsTheReturnAddress
  intro s hinj hfirst hsecond hreset hreset'
  obtain ⟨t, hexec, hbits, hpc, hregs, -, -, houtside⟩ :=
    writesIscr_of_isIscrWrite (i := .intgm 1) rfl s.atBoundary
  rw [s.atBoundary_pc] at hpc
  have hconfig : t.config = s.config := houtside.config.trans s.atBoundary_config
  have hgm : t.bit .gm = true := hbits .gm
  have hregs' : s.SameRegs t := fun q => (hregs q).trans (State.reg_congr s.atBoundary_gpr q)
  have hword : t.imem.word? t.pc = some (encode t.config.opcodes (.jr 31 0)) := by
    rw [Memory.word?_congr houtside.imem, s.atBoundary_imem, hpc, hconfig, hsecond]
  have htreset : t.pendingReset = none :=
    (State.pendingReset_congr (s := s.takeInput) houtside.env).trans hreset'
  obtain ⟨u, hexec', hkept, hcases⟩ := interruptReturn_keeps_link t.atBoundary
  have hstep : step s = .next t := (step_of_encoded hinj hreset hfirst).trans hexec
  have hstep' : step t = .next u := (step_of_encoded (hconfig ▸ hinj) htreset hword).trans hexec'
  have hbreg (q : Reg) : t.atBoundary.reg q = s.reg q :=
    (State.reg_congr t.atBoundary_gpr q).trans (hregs' q)
  have huregs : s.SameRegs u := fun q => (hkept q).trans (hbreg q)
  refine ⟨t, u, hstep, hpc, hregs', hgm, hstep', ?_⟩
  rcases hcases with ⟨hupc, huiscr⟩ | ⟨hupc, hugm, huinc⟩
  · refine .inl ⟨hupc.trans (hbreg 31), ?_, huregs⟩
    rw [State.bit_congr huiscr, t.bit_atBoundary (by decide) (by decide), hgm]
  · rw [t.atBoundary_config, hconfig] at hupc
    exact .inr ⟨hupc, hugm, huinc, huregs⟩

end Sys2Proof.Machine
end

section
/-!
The idioms of 30_encoding.md R195. Most are one of the effects settled above at fixed operands. A 32-bit
constant is an induction over the bytes listed: each instruction ors one byte into rd, so after each
rd holds the bytes listed so far, and bits of a byte not listed are zero in the constant too.
-/

namespace Sys2Proof.Machine

open Idiom

/-! ### One instruction -/

/-- Settles O55: each idiom is one shared operation, at operands that drop out. -/
theorem idiomsOfRegisterZero : Obligations.IdiomsOfRegisterZero := by
  unfold Obligations.IdiomsOfRegisterZero
  intro rd rs imm s hquiet
  refine ⟨?noOperation, ?copy, ?smallConstant, ?branchAlways, ?subroutineReturn, ?interruptReturn⟩
  case noOperation =>
    exact goesTo_of_exec_eq_conclude (exec_noOperation s) (State.servicedCause_quiet hquiet rfl) rfl
  case copy => exact writesOnly_of_exec_eq_writeReg (exec_copy s rd rs) hquiet
  case smallConstant =>
    rw [zeros_append_eq_zext32]
    exact writesOnly_of_exec_eq_writeReg (exec_smallConstant s rd imm) hquiet
  case branchAlways => exact goesTo_of_exec_eq_endJump (exec_branchAlways s imm) hquiet
  case subroutineReturn => exact goesTo_of_exec_eq_endJump (exec_subroutineReturn s) hquiet
  case interruptReturn => exact goesTo_of_exec_eq_endJump (exec_interruptReturn s) hquiet

/-- Settles O57: such an instruction accesses no data, writes no ISCR, posts no request and goes on at the
next address. -/
theorem destinationZeroIsANoOperation : Obligations.DestinationZeroIsANoOperation := by
  unfold Obligations.DestinationZeroIsANoOperation
  intro i s hquiet hrd hposts hop
  have hne (o : Op)
      (ho : o ∈ [Op.lw, .sw, .beqz, .bnez, .jr, .jsr, .trap, .intm, .intgm, .trm, .movi2s]) : i.op ≠ o :=
    fun h => hop (h ▸ ho)
  have hplain : i.isIscrWrite = false := by
    simp [Instr.isIscrWrite, hne .intm, hne .intgm, hne .trm, hne .movi2s]
  have hnext : i.nextAddress s = s.pc + 1 := Instr.nextAddress_eq_of_op (by
    simp [hne .beqz, hne .bnez, hne .jr, hne .jsr, hne .trap])
  exact hnext ▸ goesTo_nextAddress hrd (hne .lw (by decide)) (hne .sw (by decide)) hplain
    (State.servicedCause_quiet hquiet hposts)

/-! ### Direct and register-indirect addressing -/

/-- A sign-extended immediate is an address of the first or the last 128 words. -/
theorem toNat_signExtend_imm (imm : Imm) :
    (imm.signExtend 32).toNat < 128 ∨ 2 ^ 32 - 128 ≤ (imm.signExtend 32).toNat := by
  have hvalue := toInt_signExtend_imm imm
  rw [BitVec.toInt_eq_toNat_cond, BitVec.toInt_eq_toNat_cond] at hvalue
  have himm := imm.isLt
  split at hvalue <;> split at hvalue <;> omega

/-- Each pair of idioms is `lw` and `sw` with one base and displacement that give the address (R210). -/
theorem addressing_idioms {rd rs1 rs2 : Reg} {imm : Imm} {s : State} {a : Word} {load store : Instr}
    (h : (a = imm.signExtend 32 ∧ load = loadDirect rd imm ∧ store = storeDirect rs2 imm) ∨
      (a = s.reg rs1 ∧ load = loadIndirect rd rs1 ∧ store = storeIndirect rs1 rs2)) :
    ∃ base displacement, a = s.reg base + displacement.signExtend 32 ∧
      load = .lw rd base displacement ∧ store = .sw base rs2 displacement := by
  rcases h with ⟨ha, hload, hstore⟩ | ⟨ha, hload, hstore⟩
  · exact ⟨0, imm, ha.trans (BitVec.zero_add _).symm, hload, hstore⟩
  · exact ⟨rs1, 0, ha.trans (BitVec.add_zero _).symm, hload, hstore⟩

/-- Settles O56: the statements about `lw` and `sw` at the idiom's base and displacement. -/
theorem directAndIndirectAddressing : Obligations.DirectAndIndirectAddressing := by
  unfold Obligations.DirectAndIndirectAddressing
  intro rd rs1 rs2 imm s hquiet
  refine ⟨toNat_signExtend_imm imm, fun a load store hidiom hnotext hkind => ?_⟩
  obtain ⟨base, displacement, ha, rfl, rfl⟩ := addressing_idioms hidiom
  obtain ⟨hram, -⟩ := lwLoadsTheAddressedWord rd base displacement s a ha hquiet
  obtain ⟨t, hexec, -, hstored, -, hothers, hregs, hpc, hiscr, hshadow, houtside⟩ :=
    swStoresTheWord base rs2 displacement s a ha hquiet hnotext hkind
  refine ⟨hram hnotext hkind, t, hexec, fun b => ?_, hregs, hpc, hiscr, hshadow, houtside⟩
  by_cases hb : b = a
  · rw [if_pos hb, hb, hstored]
  · rw [if_neg hb, hothers b hb]

/-! ### A constant, byte by byte: the value -/

/-- The bytes of `v` that are listed, or-ed into a word one after another. -/
def orBytes (v acc : Word) (bytes : List (Fin 4)) : Word :=
  bytes.foldl (fun (word : Word) (k : Fin 4) => word ||| immInByte k (byteOf v k)) acc

/-- The byte a bit belongs to. -/
def byteIndex (i : Nat) (hi : i < 32) : Fin 4 := ⟨i / 8, by omega⟩

theorem getLsbD_immInByte (v : Word) (k : Fin 4) {i : Nat} (hi : i < 32) :
    (immInByte k (byteOf v k)).getLsbD i = (decide (byteIndex i hi = k) && v.getLsbD i) := by
  have hbyte : byteIndex i hi = k ↔ 8 * k.val ≤ i ∧ i < 8 * k.val + 8 := by
    have hindex : (byteIndex i hi).val = i / 8 := rfl
    rw [Fin.ext_iff, hindex]
    omega
  simp only [immInByte, zext32, byteOf, BitVec.getLsbD_shiftLeft, BitVec.getLsbD_setWidth,
    BitVec.getLsbD_extractLsb', decide_eq_decide.mpr hbyte]
  by_cases hlow : 8 * k.val ≤ i
  · have hbit : 8 * k.val + (i - 8 * k.val) = i := by omega
    rw [hbit]
    grind
  · grind

/-- A bit of the result is on where it was, or where the constant has it in a listed byte. -/
theorem getLsbD_orBytes (v acc : Word) (bytes : List (Fin 4)) {i : Nat} (hi : i < 32) :
    (orBytes v acc bytes).getLsbD i =
      (acc.getLsbD i || (decide (byteIndex i hi ∈ bytes) && v.getLsbD i)) := by
  induction bytes generalizing acc with
  | nil => simp [orBytes]
  | cons k rest ih =>
    have hcons : orBytes v acc (k :: rest) = orBytes v (acc ||| immInByte k (byteOf v k)) rest := rfl
    rw [hcons, ih, BitVec.getLsbD_or, getLsbD_immInByte v k hi]
    grind

/-- With every other byte zero the listed bytes make up the constant. -/
theorem orBytes_zero {v : Word} {bytes : List (Fin 4)} (h : ∀ k, k ∉ bytes → byteOf v k = 0) :
    orBytes v 0#32 bytes = v := by
  apply BitVec.eq_of_getLsbD_eq
  intro i hi
  rw [getLsbD_orBytes v 0#32 bytes hi, BitVec.getLsbD_zero, Bool.false_or]
  by_cases hlisted : byteIndex i hi ∈ bytes
  · simp [hlisted]
  · have hbit := getLsbD_immInByte v (byteIndex i hi) hi
    rw [h _ hlisted] at hbit
    simpa [hlisted, immInByte, zext32] using hbit

/-! ### A constant, byte by byte: the run -/

/-- What `n` instructions that write rd alone leave: `v` in rd, PC and the shield moved on by `n`, and
nothing else changed. -/
structure State.WritesIn (s t : State) (rd : Reg) (v : Word) (n : Nat) : Prop where
  reg : s.OnlyReg t rd v
  pc : t.pc = s.pc + BitVec.ofNat 32 n
  iscr : t.iscr = s.iscr
  shadow : t.shadow = s.shadow - n
  data : s.SameData t
  outside : s.SameOutside t

theorem State.SameOutside.trans {s t u : State} (h : s.SameOutside t) (h' : t.SameOutside u) :
    s.SameOutside u where
  imem key := (h'.imem key).trans (h.imem key)
  devices key := (h'.devices key).trans (h.devices key)
  nmiLine := h'.nmiLine.trans h.nmiLine
  miLine := h'.miLine.trans h.miLine
  config := h'.config.trans h.config
  env := h'.env.trans h.env
  bus := h'.bus.trans h.bus
  draws := h'.draws.trans h.draws
  resets := h'.resets.trans h.resets

/-- One instruction more: the later write of rd stands. -/
theorem State.WritesIn.trans {s t u : State} {rd : Reg} {v w : Word} {n : Nat}
    (h : s.WritesIn t rd v 1) (h' : t.WritesIn u rd w n) : s.WritesIn u rd w (n + 1) where
  reg q := by
    rw [h'.reg q, h.reg q]
    split <;> rfl
  pc := by
    rw [h'.pc, h.pc, BitVec.add_assoc, ← BitVec.ofNat_add, Nat.add_comm]
  iscr := h'.iscr.trans h.iscr
  shadow := by rw [h'.shadow, h.shadow]; omega
  data key := (h'.data key).trans (h.data key)
  outside := h.outside.trans h'.outside

theorem execAll_cons {i : Instr} {rest : List Instr} {s t : State} (h : exec i s = .next t) :
    execAll (i :: rest) s = execAll rest t := by simp [execAll, h]

/-- Nothing can be serviced in the next instruction, nor in those after it. -/
theorem State.quietFor.quiet {s : State} {n : Nat} (h : s.quietFor (n + 1)) : s.quiet :=
  h.imp_left fun hshadow => Nat.lt_of_lt_of_le n.succ_pos hshadow

theorem State.quietFor.of_writesIn {s t : State} {rd : Reg} {v : Word} {n : Nat} (h : s.quietFor (n + 1))
    (ht : s.WritesIn t rd v 1) : t.quietFor n := by
  have hbit (b : IscrBit) : t.bit b = s.bit b := State.bit_congr ht.iscr b
  have hshadow := ht.shadow
  simp only [State.quietFor, hbit]
  exact h.imp_left fun _ => by omega

/-- One of the four instructions that fill a byte ors it into the source (R195, R254). -/
theorem writesIn_loadByte {s : State} (hquiet : s.quiet) (k : Fin 4) (rd rs1 : Reg) (imm : Imm) :
    ∃ t, exec (loadByte k rd rs1 imm) s = .next t ∧
      s.WritesIn t rd (s.reg rs1 ||| immInByte k imm) 1 := by
  obtain ⟨t, hexec, hreg, hpc, hiscr, hshadow, hdata, houtside⟩ :=
    writesOnly_of_exec_eq_writeReg (exec_loadByte s k rd rs1 imm) hquiet
  exact ⟨t, hexec, hreg, hpc, hiscr, hshadow, hdata, houtside⟩

/-- Filling the bytes listed, from a state whose rd holds `acc` (R0 holds nothing, and needs to hold
nothing). -/
theorem execAll_loadBytes (rd : Reg) (v : Word) (bytes : List (Fin 4)) {s : State} {acc : Word}
    (hacc : rd ≠ 0#5 → s.reg rd = acc) (hquiet : s.quietFor bytes.length) :
    ∃ t, execAll (bytes.map fun k => loadByte k rd rd (byteOf v k)) s = .next t ∧
      s.WritesIn t rd (orBytes v acc bytes) bytes.length := by
  induction bytes generalizing s acc with
  | nil =>
    refine ⟨s, rfl, ?reg, (BitVec.add_zero _).symm, rfl, rfl, fun _ => rfl, ?outside⟩
    case reg =>
      intro q
      split
      next hq =>
        obtain ⟨rfl, hne⟩ := hq
        exact hacc hne
      next => rfl
    case outside => constructor <;> intros <;> rfl
  | cons k rest ih =>
    obtain ⟨t, hexec, ht⟩ := writesIn_loadByte hquiet.quiet k rd rd (byteOf v k)
    have hacc' : rd ≠ 0#5 → t.reg rd = acc ||| immInByte k (byteOf v k) := fun hne => by
      rw [ht.reg rd, if_pos ⟨rfl, hne⟩, hacc hne]
    obtain ⟨u, hrest, hu⟩ := ih hacc' (hquiet.of_writesIn ht)
    exact ⟨u, (execAll_cons hexec).trans hrest, ht.trans hu⟩

/-- Settles O58: the first instruction starts from R0, which reads 0, and the rest fill rd. -/
theorem constantIsBuiltByteByByte : Obligations.ConstantIsBuiltByteByByte := by
  unfold Obligations.ConstantIsBuiltByteByByte
  intro rd v bytes s hsome hzero hquiet
  cases bytes with
  | nil => exact absurd rfl hsome
  | cons k rest =>
    obtain ⟨t, hexec, ht⟩ := writesIn_loadByte hquiet.quiet k rd 0 (byteOf v k)
    have hacc : rd ≠ 0#5 → t.reg rd = 0 ||| immInByte k (byteOf v k) := fun hne => by
      rw [ht.reg rd, if_pos ⟨rfl, hne⟩]
      rfl
    obtain ⟨u, hrest, hu⟩ := execAll_loadBytes rd v rest hacc (hquiet.of_writesIn ht)
    have hvalue : orBytes v (0 ||| immInByte k (byteOf v k)) rest = v := orBytes_zero hzero
    obtain ⟨hreg, hpc, hiscr, hshadow, hdata, houtside⟩ := ht.trans hu
    rw [hvalue] at hreg
    exact ⟨u, (execAll_cons hexec).trans hrest, hreg, hpc, hiscr, hshadow, hdata, houtside⟩

end Sys2Proof.Machine
end
